-- ==== Sys2Proof/Word.lean ====
section
/-!
DEFINITION. The word types of CORE: bytes, byte strings of a fixed length, the command word, slot numbers.
Byte strings follow R8 (`a[0]` first); a byte string of varying length is a `List Byte`.
-/

namespace Sys2Proof

/-- A byte, 0 to 255 (R8). -/
abbrev Byte := BitVec 8

/-- A byte string of length `n`; index `i` is `a[i]` of R8. -/
abbrev Bytes (n : Nat) := Vector Byte n

/-- A cipher block, and a 16-byte key (R21, R120). -/
abbrev Block := Bytes 16

/-- A command word (R90). -/
abbrev Word := BitVec 16

/-- A key slot number, 0 to 15 (R21, R92). -/
abbrev Slot := Fin 16

/-- `0^n` of R8. -/
def zeros (n : Nat) : Bytes n := Vector.replicate n 0

end Sys2Proof
end

