-- ==== Sys2Proof/Config.lean ====
section
/-!
DEFINITION. The parameters of a CORE instance (00_scope.md R7), and the two kinds of value the spec leaves
open: the password-derivation parameters (D32) and the bytes the entropy source delivers (R39). The instance
that the machine runs with is `Sys2Proof.Machine.params` (Machine/Params.lean).
-/

namespace Sys2Proof

/-- The parameters of R7 that an instance may choose. -/
structure Config where
  /-- `CTR_FIRST`: counter value of the first block of a stream (R195). -/
  ctrFirst : Nat
  /-- `MAC_PER_BLOCK_AES`: the chunk MAC is encrypted after every block (R212). -/
  macPerBlockAes : Bool
  /-- `KDF_ROUNDS`: iteration count of the password derivation (R290). -/
  kdfRounds : Nat
  /-- `KDF_SEED`: initial value of the password derivation (R290). -/
  kdfSeed : Block
  deriving DecidableEq, Repr

/-- `KDF_ROUNDS` is OPEN (D32): a constant with no body, so a claim holds whatever it is (log 4). -/
opaque Config.openKdfRounds : Nat

/-- `KDF_SEED` is OPEN (D32): a constant with no body, so a claim holds whatever it is (log 4). -/
opaque Config.openKdfSeed : Block

/-- The bytes of draw number `n` of the entropy source beyond the draws a state lists (R39): a free value (log 2). -/
opaque Config.entropy : Nat → Bytes 24

/-- `NSLOT` (R7): number of key slots. -/
def nslot : Nat := 16
/-- `BUFSZ` (R7): bytes in each of `IBUF`, `OBUF`. -/
def bufsz : Nat := 4096
/-- `ATTR_MAGIC` (R7): the four bytes "MEGA" that begin an attribute blob. -/
def attrMagic : List Byte := [0x4D, 0x45, 0x47, 0x41]
/-- `CHUNK_UNIT` (R7): growth unit of chunk sizes. -/
def chunkUnit : Nat := 131072
/-- `CHUNK_GROW` (R7): number of growing chunks. -/
def chunkGrow : Nat := 8
/-- `CHUNK_FIXED` (R7): chunk size after the growing phase. -/
def chunkFixed : Nat := 1048576
/-- `PACK_DEFAULT` (R7): reset value of `PACKSZ`. -/
def packDefault : Nat := 1048576
/-- `PACK_ALL` (R7): the "merge everything" sentinel. -/
def packAll : Nat := 2 ^ 64 - 1
/-- `LEN_MAX` (R7): largest stream length accepted. -/
def lenMax : Nat := 2 ^ 63 - 1

end Sys2Proof
end

