-- ==== Sys2Proof/Syntax.lean ====
section
/-!
DEFINITION. The commands of CORE, one constructor per row of the opcode map (30_encoding.md R93), and the
host moves (10_state.md R43), which are what drives CORE.
-/

namespace Sys2Proof

/-- A command. `sa` is the source slot (`SA`), `sd` the destination slot (`SD`); the other operands are implicit (R92). -/
inductive Instr where
  | nop
  | aesenc (sa : Slot)
  | aesdec (sa : Slot)
  | reset
  | kload (sd : Slot)
  | kclear (sd : Slot)
  | kwrap (sa : Slot)
  | kunwrap (sa : Slot)
  | kunwrapk (sa sd : Slot)
  | cbcenc (sa : Slot)
  | cbcdec (sa : Slot)
  | attrenc
  | attrdec
  | nsplit
  | nunwrap (sa : Slot)
  | nmerge
  | nread
  | nclear
  | pwkdf (sd : Slot)
  | sopene
  | sopend
  | sread
  | sgetkey
  | sgetmac
  | sclose
  | sseek
  | swrite
  | bndnext
  | packnext
  deriving DecidableEq, Repr

/-- A host move (R43). Register numbers, offsets, counts and values are the host's natural numbers; which moves
are allowed is `HostMove.wellFormed` (the part no state is needed for) and Machine/HostMoves.lean. -/
inductive HostMove where
  /-- `WriteReg(n, v)`; for `n` = 0 executes the command word `v`. -/
  | writeReg (n v : Nat)
  /-- `ReadReg(n)`. -/
  | readReg (n : Nat)
  /-- `WriteIBUF(off, v)`. -/
  | writeIBUF (off : Nat) (v : List Byte)
  /-- `ReadOBUF(off, n)`. -/
  | readOBUF (off n : Nat)
  /-- `PushSIN(v)`. -/
  | pushSIN (v : List Byte)
  /-- `PopSOUT(n)`. -/
  | popSOUT (n : Nat)
  /-- `HardReset`. -/
  | hardReset
  deriving DecidableEq, Repr

/-- What a read move returns to the host (R43): a register's value as a number, or bytes. -/
inductive Reply where
  | number (v : Nat)
  | bytes (v : List Byte)
  deriving DecidableEq, Repr

end Sys2Proof
end

