-- ==== Sys2Proof/WellFormed.lean ====
section
/-!
DEFINITION. Which terms the spec gives a meaning: the opcode map as a table of rows with match and mask
(30_encoding.md R91, R93), the legal command words (R94), and the host moves whose "allowed when" condition
(10_state.md R43) needs no state. A term of `Instr` needs no check of its own: its slots are of type `Slot`, which
holds 0 to 15 and nothing else (R92), so what can be ill-formed is the word it is written as.
-/

namespace Sys2Proof

/-- The four formats of R91. -/
inductive Format where
  | N | A | D | AD
  deriving DecidableEq, Repr

/-- The mask of a format: a 1 in every bit that must equal `match` (R91, R93). -/
def Format.mask : Format → Word
  | .N => 0xFFFF
  | .A => 0xFF0F
  | .D => 0xFFF0
  | .AD => 0xFF00

/-- One row of the opcode map (R93). -/
structure OpcodeRow where
  opc : BitVec 8
  mnemonic : String
  format : Format
  deriving DecidableEq, Repr

/-- The value of the word with every field set to 0 (R93). -/
def OpcodeRow.matchWord (r : OpcodeRow) : Word := r.opc.zeroExtend 16 <<< 8

/-- The complete opcode map (R93), in its order. -/
def opcodeTable : List OpcodeRow :=
  [ ⟨0x00, "NOP", .N⟩, ⟨0x01, "AESENC", .A⟩, ⟨0x02, "AESDEC", .A⟩, ⟨0x0F, "RESET", .N⟩,
    ⟨0x10, "KLOAD", .D⟩, ⟨0x11, "KCLEAR", .D⟩ ] ++
  [ ⟨0x20, "KWRAP", .A⟩, ⟨0x21, "KUNWRAP", .A⟩, ⟨0x22, "KUNWRAPK", .AD⟩, ⟨0x23, "CBCENC", .A⟩,
    ⟨0x24, "CBCDEC", .A⟩, ⟨0x28, "ATTRENC", .N⟩, ⟨0x29, "ATTRDEC", .N⟩ ] ++
  [ ⟨0x30, "NSPLIT", .N⟩, ⟨0x31, "NUNWRAP", .A⟩, ⟨0x32, "NMERGE", .N⟩, ⟨0x33, "NREAD", .N⟩,
    ⟨0x34, "NCLEAR", .N⟩, ⟨0x38, "PWKDF", .D⟩ ] ++
  [ ⟨0x40, "SOPENE", .N⟩, ⟨0x41, "SOPEND", .N⟩, ⟨0x42, "SREAD", .N⟩, ⟨0x43, "SGETKEY", .N⟩,
    ⟨0x44, "SGETMAC", .N⟩, ⟨0x45, "SCLOSE", .N⟩, ⟨0x46, "SSEEK", .N⟩, ⟨0x47, "SWRITE", .N⟩,
    ⟨0x50, "BNDNEXT", .N⟩, ⟨0x51, "PACKNEXT", .N⟩ ]

/-- The opcode field `OPC` of a command word, bits 15:8 (R90). -/
def Word.opc (w : Word) : BitVec 8 := w.extractLsb' 8 8

/-- The row of R93 whose `OPC` is the word's, if there is one (R99). -/
def Word.row? (w : Word) : Option OpcodeRow := opcodeTable.find? fun r => r.opc == Word.opc w

/-- A word is legal (R94): its `OPC` is assigned, and every field its format does not use is zero. -/
def Word.legal (w : Word) : Bool :=
  match Word.row? w with
  | none => false
  | some r => w &&& r.format.mask == r.matchWord

/-- Width in bits of a register the host may write (R34, R43); `none` for every other register number. -/
def writableWidth : Nat → Option Nat
  | 0 => some 16
  | 2 => some 64
  | 3 => some 64
  | 5 => some 16
  | 10 => some 64
  | _ => none

/-- The registers the host may read: 1 to 10 (R43). -/
def readableReg (n : Nat) : Bool := 1 ≤ n && n ≤ 10

/-- The part of R43's "allowed when" column that needs no state. -/
def HostMove.wellFormed : HostMove → Bool
  | .writeReg n v => match writableWidth n with
    | some w => v < 2 ^ w
    | none => false
  | .readReg n => readableReg n
  | .writeIBUF off v => off + v.length ≤ bufsz
  | .readOBUF off n => off + n ≤ bufsz
  | .pushSIN _ => true
  | .popSOUT _ => true
  | .hardReset => true

end Sys2Proof
end

