-- ==== Sys2Proof/Decode.lean ====
section
/-!
DEFINITION. Decoding a command word (30_encoding.md R99) and, after it, encoding a command (R97).
-/

namespace Sys2Proof

/-- Why a word is illegal (R94): clause (a) or clause (b). -/
inductive Illegal where
  /-- (a): `OPC` is not one of the 29 of R93. -/
  | unassignedOpcode
  /-- (b): a field the format does not use is non-zero. -/
  | nonzeroUnusedField
  deriving DecidableEq, Repr

/-- The field `SA`, bits 7:4 (R90). -/
def Word.sa (w : Word) : Slot := (w.extractLsb' 4 4).toFin

/-- The field `SD`, bits 3:0 (R90). -/
def Word.sd (w : Word) : Slot := (w.extractLsb' 0 4).toFin

/-- The command an opcode names, with the slot fields it uses (R91, R93); `none` for an unassigned opcode. -/
def commandOf (opc : Nat) (sa sd : Slot) : Option Instr :=
  match opc with
  | 0x00 => some .nop
  | 0x01 => some (.aesenc sa)
  | 0x02 => some (.aesdec sa)
  | 0x0F => some .reset
  | 0x10 => some (.kload sd)
  | 0x11 => some (.kclear sd)
  | 0x20 => some (.kwrap sa)
  | 0x21 => some (.kunwrap sa)
  | 0x22 => some (.kunwrapk sa sd)
  | 0x23 => some (.cbcenc sa)
  | 0x24 => some (.cbcdec sa)
  | 0x28 => some .attrenc
  | 0x29 => some .attrdec
  | 0x30 => some .nsplit
  | 0x31 => some (.nunwrap sa)
  | 0x32 => some .nmerge
  | 0x33 => some .nread
  | 0x34 => some .nclear
  | 0x38 => some (.pwkdf sd)
  | 0x40 => some .sopene
  | 0x41 => some .sopend
  | 0x42 => some .sread
  | 0x43 => some .sgetkey
  | 0x44 => some .sgetmac
  | 0x45 => some .sclose
  | 0x46 => some .sseek
  | 0x47 => some .swrite
  | 0x50 => some .bndnext
  | 0x51 => some .packnext
  | _ => none

/-- Decode a command word (R99): look the opcode up, check the row's mask and match, take the slot fields.
Total: an illegal word is rejected with the clause of R94 it falls under. -/
def decode (w : Word) : Except Illegal Instr :=
  match Word.row? w with
  | none => .error .unassignedOpcode
  | some r =>
    if w &&& r.format.mask != r.matchWord then .error .nonzeroUnusedField
    else match commandOf (Word.opc w).toNat (Word.sa w) (Word.sd w) with
      | some i => .ok i
      | none => .error .unassignedOpcode

/-- `word = OPC << 8 | SA << 4 | SD` (R97). -/
def assemble (opc : BitVec 8) (sa sd : Slot) : Word :=
  (opc.zeroExtend 16 <<< 8) ||| ((BitVec.ofFin sa : BitVec 4).zeroExtend 16 <<< 4)
    ||| (BitVec.ofFin sd : BitVec 4).zeroExtend 16

/-- The word of a command (R93, R97): unused fields are 0. -/
def encode : Instr → Word
  | .nop => assemble 0x00 0 0
  | .aesenc sa => assemble 0x01 sa 0
  | .aesdec sa => assemble 0x02 sa 0
  | .reset => assemble 0x0F 0 0
  | .kload sd => assemble 0x10 0 sd
  | .kclear sd => assemble 0x11 0 sd
  | .kwrap sa => assemble 0x20 sa 0
  | .kunwrap sa => assemble 0x21 sa 0
  | .kunwrapk sa sd => assemble 0x22 sa sd
  | .cbcenc sa => assemble 0x23 sa 0
  | .cbcdec sa => assemble 0x24 sa 0
  | .attrenc => assemble 0x28 0 0
  | .attrdec => assemble 0x29 0 0
  | .nsplit => assemble 0x30 0 0
  | .nunwrap sa => assemble 0x31 sa 0
  | .nmerge => assemble 0x32 0 0
  | .nread => assemble 0x33 0 0
  | .nclear => assemble 0x34 0 0
  | .pwkdf sd => assemble 0x38 0 sd
  | .sopene => assemble 0x40 0 0
  | .sopend => assemble 0x41 0 0
  | .sread => assemble 0x42 0 0
  | .sgetkey => assemble 0x43 0 0
  | .sgetmac => assemble 0x44 0 0
  | .sclose => assemble 0x45 0 0
  | .sseek => assemble 0x46 0 0
  | .swrite => assemble 0x47 0 0
  | .bndnext => assemble 0x50 0 0
  | .packnext => assemble 0x51 0 0

/-- The command this decoder reads from an instruction whose bits are `w`, bit 0 the least significant of its one
16-bit word; bits at or above `nbits` are 0. A command word is handed over whole (R63, R74), so there is no byte
order to lay out. -/
def decodeTableWord (nbits w : Nat) : Option Instr :=
  (decode (BitVec.ofNat 16 (w % 2 ^ nbits))).toOption

end Sys2Proof
end

