-- ==== Sys2Proof/Machine/Bytes.lean ====
section
/-!
DEFINITION. Operations on byte strings (00_scope.md R8, R9).
-/

namespace Sys2Proof.Machine

/-- `a xor b`, byte-wise, of two byte strings of equal length (R8). -/
def xorBytes {n : Nat} (a b : Bytes n) : Bytes n := Vector.ofFn fun i => a[i] ^^^ b[i]

/-- `l[off..off+n)` as a byte string of length `n` (R8). Its callers have `off + n ≤ |l|`; a byte that is not
there would read as 0. -/
def sliceBytes (n off : Nat) (l : List Byte) : Bytes n := Vector.ofFn fun i => l.getD (off + i.val) 0

/-- `be64(v)`: 8 bytes, the most significant first (R9); the spec defines it for `v < 2^64` (log 6). -/
def be64 (v : Nat) : Bytes 8 := Vector.ofFn fun i => BitVec.ofNat 8 (v >>> (8 * (7 - i.val)))

/-- `a ‖ b` of two 8-byte strings, as a block. -/
def joinHalves (a b : Bytes 8) : Block :=
  Vector.ofFn fun i => if h : i.val < 8 then a[i.val] else b[i.val - 8]

end Sys2Proof.Machine
end

