-- ==== Sys2Proof/Machine/Aes.lean ====
section
/-!
DEFINITION. The AES-128 block cipher (40_aes_block.md R123 to R134): field arithmetic, round functions, key
expansion, `AES_enc` and `AES_dec`. Pure functions of the key bytes and the block bytes (R122).
-/

namespace Sys2Proof.Machine

/-- `xtime(a)` = `a • 0x02` (R123). -/
def xtime (a : Byte) : Byte := (a <<< 1) ^^^ (if a.getLsbD 7 then 0x1B else 0)

/-- The xor of `xtime^i(a)` over the bits `i < n` set in `b`, `b` read from its least significant bit (R123). -/
def gmulBits : Nat → Byte → Byte → Byte
  | 0, _, _ => 0
  | n + 1, a, b => (if b.getLsbD 0 then a else 0) ^^^ gmulBits n (xtime a) (b >>> 1)

/-- `a • b` in GF(2^8) (R123). -/
def gmul (a b : Byte) : Byte := gmulBits 8 a b

/-- The table `SBOX` (R125): row = high nibble, column = low nibble. -/
def sboxRows : List (List Byte) :=
  [[0x63, 0x7c, 0x77, 0x7b, 0xf2, 0x6b, 0x6f, 0xc5, 0x30, 0x01, 0x67, 0x2b, 0xfe, 0xd7, 0xab, 0x76]] ++
  [[0xca, 0x82, 0xc9, 0x7d, 0xfa, 0x59, 0x47, 0xf0, 0xad, 0xd4, 0xa2, 0xaf, 0x9c, 0xa4, 0x72, 0xc0]] ++
  [[0xb7, 0xfd, 0x93, 0x26, 0x36, 0x3f, 0xf7, 0xcc, 0x34, 0xa5, 0xe5, 0xf1, 0x71, 0xd8, 0x31, 0x15]] ++
  [[0x04, 0xc7, 0x23, 0xc3, 0x18, 0x96, 0x05, 0x9a, 0x07, 0x12, 0x80, 0xe2, 0xeb, 0x27, 0xb2, 0x75]] ++
  [[0x09, 0x83, 0x2c, 0x1a, 0x1b, 0x6e, 0x5a, 0xa0, 0x52, 0x3b, 0xd6, 0xb3, 0x29, 0xe3, 0x2f, 0x84]] ++
  [[0x53, 0xd1, 0x00, 0xed, 0x20, 0xfc, 0xb1, 0x5b, 0x6a, 0xcb, 0xbe, 0x39, 0x4a, 0x4c, 0x58, 0xcf]] ++
  [[0xd0, 0xef, 0xaa, 0xfb, 0x43, 0x4d, 0x33, 0x85, 0x45, 0xf9, 0x02, 0x7f, 0x50, 0x3c, 0x9f, 0xa8]] ++
  [[0x51, 0xa3, 0x40, 0x8f, 0x92, 0x9d, 0x38, 0xf5, 0xbc, 0xb6, 0xda, 0x21, 0x10, 0xff, 0xf3, 0xd2]] ++
  [[0xcd, 0x0c, 0x13, 0xec, 0x5f, 0x97, 0x44, 0x17, 0xc4, 0xa7, 0x7e, 0x3d, 0x64, 0x5d, 0x19, 0x73]] ++
  [[0x60, 0x81, 0x4f, 0xdc, 0x22, 0x2a, 0x90, 0x88, 0x46, 0xee, 0xb8, 0x14, 0xde, 0x5e, 0x0b, 0xdb]] ++
  [[0xe0, 0x32, 0x3a, 0x0a, 0x49, 0x06, 0x24, 0x5c, 0xc2, 0xd3, 0xac, 0x62, 0x91, 0x95, 0xe4, 0x79]] ++
  [[0xe7, 0xc8, 0x37, 0x6d, 0x8d, 0xd5, 0x4e, 0xa9, 0x6c, 0x56, 0xf4, 0xea, 0x65, 0x7a, 0xae, 0x08]] ++
  [[0xba, 0x78, 0x25, 0x2e, 0x1c, 0xa6, 0xb4, 0xc6, 0xe8, 0xdd, 0x74, 0x1f, 0x4b, 0xbd, 0x8b, 0x8a]] ++
  [[0x70, 0x3e, 0xb5, 0x66, 0x48, 0x03, 0xf6, 0x0e, 0x61, 0x35, 0x57, 0xb9, 0x86, 0xc1, 0x1d, 0x9e]] ++
  [[0xe1, 0xf8, 0x98, 0x11, 0x69, 0xd9, 0x8e, 0x94, 0x9b, 0x1e, 0x87, 0xe9, 0xce, 0x55, 0x28, 0xdf]] ++
  [[0x8c, 0xa1, 0x89, 0x0d, 0xbf, 0xe6, 0x42, 0x68, 0x41, 0x99, 0x2d, 0x0f, 0xb0, 0x54, 0xbb, 0x16]]

/-- The table `INVSBOX` (R126), same layout. -/
def invSboxRows : List (List Byte) :=
  [[0x52, 0x09, 0x6a, 0xd5, 0x30, 0x36, 0xa5, 0x38, 0xbf, 0x40, 0xa3, 0x9e, 0x81, 0xf3, 0xd7, 0xfb]] ++
  [[0x7c, 0xe3, 0x39, 0x82, 0x9b, 0x2f, 0xff, 0x87, 0x34, 0x8e, 0x43, 0x44, 0xc4, 0xde, 0xe9, 0xcb]] ++
  [[0x54, 0x7b, 0x94, 0x32, 0xa6, 0xc2, 0x23, 0x3d, 0xee, 0x4c, 0x95, 0x0b, 0x42, 0xfa, 0xc3, 0x4e]] ++
  [[0x08, 0x2e, 0xa1, 0x66, 0x28, 0xd9, 0x24, 0xb2, 0x76, 0x5b, 0xa2, 0x49, 0x6d, 0x8b, 0xd1, 0x25]] ++
  [[0x72, 0xf8, 0xf6, 0x64, 0x86, 0x68, 0x98, 0x16, 0xd4, 0xa4, 0x5c, 0xcc, 0x5d, 0x65, 0xb6, 0x92]] ++
  [[0x6c, 0x70, 0x48, 0x50, 0xfd, 0xed, 0xb9, 0xda, 0x5e, 0x15, 0x46, 0x57, 0xa7, 0x8d, 0x9d, 0x84]] ++
  [[0x90, 0xd8, 0xab, 0x00, 0x8c, 0xbc, 0xd3, 0x0a, 0xf7, 0xe4, 0x58, 0x05, 0xb8, 0xb3, 0x45, 0x06]] ++
  [[0xd0, 0x2c, 0x1e, 0x8f, 0xca, 0x3f, 0x0f, 0x02, 0xc1, 0xaf, 0xbd, 0x03, 0x01, 0x13, 0x8a, 0x6b]] ++
  [[0x3a, 0x91, 0x11, 0x41, 0x4f, 0x67, 0xdc, 0xea, 0x97, 0xf2, 0xcf, 0xce, 0xf0, 0xb4, 0xe6, 0x73]] ++
  [[0x96, 0xac, 0x74, 0x22, 0xe7, 0xad, 0x35, 0x85, 0xe2, 0xf9, 0x37, 0xe8, 0x1c, 0x75, 0xdf, 0x6e]] ++
  [[0x47, 0xf1, 0x1a, 0x71, 0x1d, 0x29, 0xc5, 0x89, 0x6f, 0xb7, 0x62, 0x0e, 0xaa, 0x18, 0xbe, 0x1b]] ++
  [[0xfc, 0x56, 0x3e, 0x4b, 0xc6, 0xd2, 0x79, 0x20, 0x9a, 0xdb, 0xc0, 0xfe, 0x78, 0xcd, 0x5a, 0xf4]] ++
  [[0x1f, 0xdd, 0xa8, 0x33, 0x88, 0x07, 0xc7, 0x31, 0xb1, 0x12, 0x10, 0x59, 0x27, 0x80, 0xec, 0x5f]] ++
  [[0x60, 0x51, 0x7f, 0xa9, 0x19, 0xb5, 0x4a, 0x0d, 0x2d, 0xe5, 0x7a, 0x9f, 0x93, 0xc9, 0x9c, 0xef]] ++
  [[0xa0, 0xe0, 0x3b, 0x4d, 0xae, 0x2a, 0xf5, 0xb0, 0xc8, 0xeb, 0xbb, 0x3c, 0x83, 0x53, 0x99, 0x61]] ++
  [[0x17, 0x2b, 0x04, 0x7e, 0xba, 0x77, 0xd6, 0x26, 0xe1, 0x69, 0x14, 0x63, 0x55, 0x21, 0x0c, 0x7d]]

/-- An entry of a table of 16 rows of 16. -/
def tableEntry (rows : List (List Byte)) (a : Byte) : Byte :=
  (rows.getD (a.toNat / 16) []).getD (a.toNat % 16) 0

/-- `SBOX[a]` (R125). -/
def sbox (a : Byte) : Byte := tableEntry sboxRows a

/-- `INVSBOX[a]` (R126). -/
def invSbox (a : Byte) : Byte := tableEntry invSboxRows a

/-- `SubBytes` (R127). -/
def subBytes (st : Block) : Block := Vector.ofFn fun i => sbox st[i]

/-- `InvSubBytes` (R127). -/
def invSubBytes (st : Block) : Block := Vector.ofFn fun i => invSbox st[i]

/-- `ShiftRows` (R128): row `r`, column `c` takes column `(c + r) mod 4` of its row; index `r + 4c` (R124). -/
def shiftRows (st : Block) : Block :=
  Vector.ofFn fun i => st[i.val % 4 + 4 * ((i.val / 4 + i.val % 4) % 4)]'(by omega)

/-- `InvShiftRows` (R128): column `(c + r) mod 4` of row `r` takes column `c`. -/
def invShiftRows (st : Block) : Block :=
  Vector.ofFn fun i => st[i.val % 4 + 4 * ((i.val / 4 + 4 - i.val % 4) % 4)]'(by omega)

/-- One column product (R129): the byte in row `r` is `m0•a[r] xor m1•a[r+1] xor m2•a[r+2] xor m3•a[r+3]`, rows mod 4;
both matrices of R129 are circulant, so their first rows determine them. -/
def mixWith (m0 m1 m2 m3 : Byte) (st : Block) : Block :=
  Vector.ofFn fun i =>
    let a (j : Nat) : Byte := st[4 * (i.val / 4) + (i.val + j) % 4]'(by omega)
    gmul m0 (a 0) ^^^ gmul m1 (a 1) ^^^ gmul m2 (a 2) ^^^ gmul m3 (a 3)

/-- `MixColumns` (R129). -/
def mixColumns (st : Block) : Block := mixWith 0x02 0x03 0x01 0x01 st

/-- `InvMixColumns` (R129). -/
def invMixColumns (st : Block) : Block := mixWith 0x0E 0x0B 0x0D 0x09 st

/-- `AddRoundKey` (R130). -/
def addRoundKey (st rk : Block) : Block := xorBytes st rk

/-- `RCON[j]` for `j` = 1 to 10 (R132); index 0 is not used. -/
def rcon : Nat → Byte
  | 0 => 0
  | 1 => 0x01
  | j + 2 => xtime (rcon (j + 1))

/-- The word `t` of R131 for a position `i` that is a multiple of 4: RotWord, SubWord, and the round constant. -/
def scheduleWord (i : Nat) (t : Bytes 4) : Bytes 4 :=
  Vector.ofFn fun j => sbox (t[(j.val + 1) % 4]'(by omega)) ^^^ (if j.val = 0 then rcon (i / 4) else 0)

/-- The first `4 + n` words of the key expansion (R131). -/
def keyWords (k : Block) : Nat → List (Bytes 4)
  | 0 => (List.range 4).map fun i => sliceBytes 4 (4 * i) k.toList
  | n + 1 =>
    let w := keyWords k n
    let i := n + 4
    let t := w.getD (i - 1) (zeros 4)
    w ++ [xorBytes (w.getD (i - 4) (zeros 4)) (if i % 4 = 0 then scheduleWord i t else t)]

/-- `rk[r]`, the round key of round `r`, 0 to 10 (R131). -/
def roundKey (k : Block) (r : Nat) : Block :=
  let w := keyWords k 40
  Vector.ofFn fun i => (w.getD (4 * r + i.val / 4) (zeros 4))[i.val % 4]'(by omega)

/-- The state after round `r` of the cipher, `r` ≤ 9, from block `b` (R133). -/
def encRounds (k b : Block) : Nat → Block
  | 0 => addRoundKey b (roundKey k 0)
  | r + 1 => addRoundKey (mixColumns (shiftRows (subBytes (encRounds k b r)))) (roundKey k (r + 1))

/-- `AES_enc(k, b)` (R133). -/
def aesEnc (k b : Block) : Block :=
  addRoundKey (shiftRows (subBytes (encRounds k b 9))) (roundKey k 10)

/-- Rounds `r` down to 1 of the inverse cipher (R134). -/
def decRounds (k : Block) : Nat → Block → Block
  | 0, st => st
  | r + 1, st => decRounds k r (invMixColumns (addRoundKey (invSubBytes (invShiftRows st)) (roundKey k (r + 1))))

/-- `AES_dec(k, c)` (R134). -/
def aesDec (k c : Block) : Block :=
  addRoundKey (invSubBytes (invShiftRows (decRounds k 9 (addRoundKey c (roundKey k 10))))) (roundKey k 0)

end Sys2Proof.Machine
end

