-- ==== Sys2Proof/Machine/FileKey.lean ====
section
/-!
DEFINITION. FileKey split and merge, and the password derivation, as functions (44_key_hierarchy.md R281, R282, R290).
-/

namespace Sys2Proof.Machine

/-- `split(raw)` = (`aesKey`, `iv`, `metaMacCheck`) (R281). -/
def splitKey (raw : Bytes 32) : Block × Bytes 8 × Bytes 8 :=
  (Vector.ofFn fun i => raw[i.val]'(by omega) ^^^ raw[i.val + 16]'(by omega),
   Vector.ofFn fun i => raw[i.val + 16]'(by omega),
   Vector.ofFn fun i => raw[i.val + 24]'(by omega))

/-- `merge(key, iv, mac)` (R282): the second half is `iv ‖ mac`, the first is `key` xored with it. -/
def mergeKey (key : Block) (iv mac : Bytes 8) : Bytes 32 :=
  let half := joinHalves iv mac
  Vector.ofFn fun i =>
    if h : i.val < 16 then key[i.val] ^^^ half[i.val] else half[i.val - 16]'(by omega)

/-- `pw ‖ 0^z`, the password zero-padded to a multiple of 16 (R290). -/
def padPassword (pw : List Byte) : List Byte :=
  pw ++ List.replicate ((16 - pw.length % 16) % 16) 0

/-- One round of R290 over `m` password chunks: each chunk is the key, the running state the block. -/
def pwRound : Nat → List Byte → Block → Block
  | 0, _, st => st
  | m + 1, q, st => pwRound m (q.drop 16) (aesEnc (sliceBytes 16 0 q) st)

/-- `n` rounds of R290 from `st`. -/
def pwRounds (q : List Byte) : Nat → Block → Block
  | 0, st => st
  | n + 1, st => pwRounds q n (pwRound (q.length / 16) q st)

/-- `pwkdf(pw)` (R290) with the instance's `KDF_ROUNDS` and `KDF_SEED`. -/
def pwkdf (cfg : Config) (pw : List Byte) : Block := pwRounds (padPassword pw) cfg.kdfRounds cfg.kdfSeed

end Sys2Proof.Machine
end

