-- ==== Sys2Proof/Machine/Memory.lean ====
section
/-!
DEFINITION. The operand buffers `IBUF` and `OBUF` (10_state.md R31, R32): 4096 bytes each at offsets 0 to 4095, held as a
list of cells in one canonical form. Every byte of both is 0 after reset (R42), so an unlisted byte reads 0.
-/

namespace Sys2Proof.Machine

/-- A buffer's non-zero bytes, offsets strictly rising. -/
abbrev Memory := List Host.Cell

/-- What an unlisted byte reads as: the reset contents of both buffers (R42). -/
def Memory.unlisted : Byte := 0

/-- The canonical form: offsets strictly rising and below `BUFSZ`, no cell equal to what an unlisted byte reads as. -/
def Memory.wf (m : Memory) : Bool :=
  decide (m.Pairwise fun a b => a.1 < b.1) && m.all fun c => decide (c.1 < bufsz) && c.2 != Memory.unlisted

/-- The byte at an offset. -/
def Memory.read : Memory → Nat → Byte
  | [], _ => Memory.unlisted
  | c :: m, a => if c.1 = a then c.2 else Memory.read m a

/-- `MemRead(m, off, n)` (R10): the bytes `m[off..off+n)`. -/
def Memory.readRange (m : Memory) (off n : Nat) : List Byte :=
  (List.range n).map fun i => m.read (off + i)

/-- The cells of a byte string written from an offset; a byte equal to the unlisted one needs no cell. -/
def Memory.cellsOf : Nat → List Byte → Memory
  | _, [] => []
  | off, b :: v => if b = Memory.unlisted then Memory.cellsOf (off + 1) v else (off, b) :: Memory.cellsOf (off + 1) v

/-- `MemWrite(m, off, v)` (R10): `m[off..off+|v|) ← v`; every other byte keeps its value. -/
def Memory.writeRange (m : Memory) (off : Nat) (v : List Byte) : Memory :=
  m.filter (fun c => decide (c.1 < off)) ++ Memory.cellsOf off v
    ++ m.filter (fun c => decide (off + v.length ≤ c.1))

end Sys2Proof.Machine
end

