-- ==== Sys2Proof/Machine/State.lean ====
section
/-!
DEFINITION. The state of CORE (10_state.md), the two ways a step can stop, and the state after reset (R42).
-/

namespace Sys2Proof.Machine

/-- The error a command leaves in `STATUS.ERR` (60_exceptions.md R311), by name; `ErrCode.code` gives its number. -/
inductive ErrCode where
  | ok | illegal | unsupported | readSize | badLen | state | notReady | keySlot | keyAccess | integrity | underrun
  deriving DecidableEq, Repr

/-- `NK.state` (R26). -/
inductive NodeState where
  | null | folder | file
  deriving DecidableEq, Repr

/-- `S.state` (R28). -/
inductive StreamState where
  | closed | active | done
  deriving DecidableEq, Repr

/-- `S.mode` (R28). -/
inductive StreamMode where
  | enc | dec
  deriving DecidableEq, Repr

/-- The node-key register set `NK` (R26). -/
structure NodeKey where
  state : NodeState
  key : Block
  iv : Bytes 8
  mac : Bytes 8
  deriving DecidableEq, Repr

/-- The stream context `S` (R28). -/
structure Stream where
  state : StreamState
  mode : StreamMode
  key : Block
  iv : Bytes 8
  /-- expected MetaMac of a decrypting stream -/
  expmac : Bytes 8
  /-- total length `L` in bytes -/
  len : BitVec 64
  /-- bytes consumed so far -/
  pos : BitVec 64
  /-- blocks processed so far -/
  ctr : BitVec 64
  /-- per-chunk MAC accumulator -/
  chunkmac : Block
  /-- running file MAC -/
  filemac : Block
  /-- final tag, valid only when done -/
  metamac : Bytes 8
  deriving DecidableEq, Repr

/-- Everything the spec gives CORE, and four fields of the model's own for what lies outside it. -/
structure State where
  /-- `K[s]`, the key slots (R21) -/
  k : Vector Block 16
  /-- `KV[s]`, their valid flags (R21) -/
  kv : Vector Bool 16
  /-- `NK` (R26) -/
  nk : NodeKey
  /-- `S` (R28) -/
  stream : Stream
  /-- `IBUF` (R31) -/
  ibuf : Memory
  /-- `ILEN` (R31) -/
  ilen : BitVec 16
  /-- `OBUF` (R32) -/
  obuf : Memory
  /-- `OLEN` (R32) -/
  olen : BitVec 16
  /-- `SIN`, head first (R33) -/
  sin : List Byte
  /-- `SOUT`, head first (R33) -/
  sout : List Byte
  /-- `STATUS.ERR` (R35) -/
  err : ErrCode
  /-- `INTEG` (R36) -/
  integ : Bool
  /-- `ATTRBAD` (R36) -/
  attrbad : Bool
  /-- `NONE` (R36) -/
  noBoundary : Bool
  /-- `ARG0` (R34) -/
  arg0 : BitVec 64
  /-- `ARG1` (R34) -/
  arg1 : BitVec 64
  /-- `RES` (R34) -/
  res : BitVec 64
  /-- `PACKSZ` (R34) -/
  packsz : BitVec 64
  /-- The model's own: the host moves still to be made, in order (log 1). -/
  moves : List HostMove
  /-- The model's own: what the read moves have returned, in order (log 1). -/
  replies : List Reply
  /-- The model's own: the draws the entropy source is about to deliver (R39, D23; log 2). -/
  entropy : List (Bytes 24)
  /-- The model's own: how many draws were made beyond the listed ones (log 2). -/
  draws : Nat
  deriving DecidableEq, Repr

/-- No step of CORE faults: a command error is an outcome with a next state, and "there is no third outcome" (R310). -/
inductive Fault where
  deriving DecidableEq, Repr

/-- Why the model gives a host move no meaning: the condition of R43's "allowed when" column that fails (R44).
Each is raised by `performMove` (Machine/HostMoves.lean) and is safe: the spec gives such a move no effect and no value. -/
inductive Refusal where
  /-- No meaning yet for a command, by its mnemonic. Raised by no arm of `exec`. Safe. -/
  | notModelled (mnemonic : String)
  /-- The register number is 11 or more (R34, R43). Safe. -/
  | noSuchRegister
  /-- A write to a register the host may only read (R34, R43). Safe. -/
  | registerReadOnly
  /-- A read of `CMD` (R34, R43). Safe. -/
  | registerWriteOnly
  /-- The value does not fit the register's width (R43, R96). Safe. -/
  | valueTooWide
  /-- A write to `IBUF` that would pass its end (R43). Safe. -/
  | ibufOutOfRange
  /-- A read of `OBUF` at or beyond `OLEN` (R32, R43). Safe. -/
  | obufOutOfRange
  /-- A pop of more bytes than `SOUT` holds (R43). Safe. -/
  | soutTooShort
  deriving DecidableEq, Repr

/-- `NK` with no valid field (R26, R42). -/
def NodeKey.null : NodeKey := { state := .null, key := zeros 16, iv := zeros 8, mac := zeros 8 }

/-- `S` at its reset values (R42). -/
def Stream.closed : Stream :=
  { state := .closed, mode := .enc, key := zeros 16, iv := zeros 8, expmac := zeros 8, len := 0, pos := 0, ctr := 0,
    chunkmac := zeros 16, filemac := zeros 16, metamac := zeros 8 }

/-- The machine right after reset (R42, R351): every piece of state as the table of R42 gives it; no host move pending,
nothing replied, no draw listed (log 1, log 2). -/
def State.reset : State :=
  { k := Vector.replicate 16 (zeros 16), kv := Vector.replicate 16 false, nk := NodeKey.null, stream := Stream.closed,
    ibuf := [], ilen := 0, obuf := [], olen := 0, sin := [], sout := [], err := .ok, integ := false, attrbad := false,
    noBoundary := false, arg0 := 0, arg1 := 0, res := 0, packsz := BitVec.ofNat 64 packDefault,
    moves := [], replies := [], entropy := [], draws := 0 }

end Sys2Proof.Machine
end

