-- ==== Sys2Proof/Machine/Flags.lean ====
section
/-!
DEFINITION. Error codes, the flags and the composed registers `STATUS` and `KVALID` (10_state.md R34 to R36; 60_exceptions.md R311).
CORE has no carry, zero, sign or overflow flag (R36).
-/

namespace Sys2Proof.Machine

/-- The number of an error (R311). -/
def ErrCode.code : ErrCode → BitVec 8
  | .ok => 0
  | .illegal => 1
  | .unsupported => 2
  | .readSize => 3
  | .badLen => 4
  | .state => 5
  | .notReady => 6
  | .keySlot => 7
  | .keyAccess => 8
  | .integrity => 9
  | .underrun => 10

/-- `SSTATE` (R35). -/
def StreamState.code : StreamState → BitVec 2
  | .closed => 0
  | .active => 1
  | .done => 2

/-- `NKSTATE` (R35). -/
def NodeState.code : NodeState → BitVec 2
  | .null => 0
  | .folder => 1
  | .file => 2

/-- `S.mode` as a bit (R28). -/
def StreamMode.code : StreamMode → BitVec 1
  | .enc => 0
  | .dec => 1

/-- `SMODE` (R35): `S.mode`, and 0 while the stream is closed. -/
def Stream.smode (S : Stream) : BitVec 1 :=
  match S.state with
  | .closed => 0
  | .active => S.mode.code
  | .done => S.mode.code

/-- The register `STATUS` (R35), most significant field first: 31:19 zero, NONE, ATTRBAD, INTEG, 15:14 zero, NKSTATE,
11 zero, SMODE, SSTATE, ERR. -/
def State.status (s : State) : BitVec 32 :=
  (0 : BitVec 13) ++ BitVec.ofBool s.noBoundary ++ BitVec.ofBool s.attrbad ++ BitVec.ofBool s.integ ++ (0 : BitVec 2)
    ++ s.nk.state.code ++ (0 : BitVec 1) ++ s.stream.smode ++ s.stream.state.code ++ s.err.code

/-- The register `KVALID` (R34): bit `j` reads `KV[j]`. -/
def State.kvalid (s : State) : BitVec 16 := BitVec.ofFnLE fun j => s.kv[j]

/-- `INTEG ← b` (R36). -/
def State.setInteg (s : State) (b : Bool) : State := { s with integ := b }

/-- `ATTRBAD ← b` (R36). -/
def State.setAttrbad (s : State) (b : Bool) : State := { s with attrbad := b }

/-- `NONE ← b` (R36). -/
def State.setNone (s : State) (b : Bool) : State := { s with noBoundary := b }

end Sys2Proof.Machine
end

