-- ==== Sys2Proof/Machine/Operands.lean ====
section
/-!
DEFINITION. The operands of commands (30_encoding.md R92) and the checks on them (20_memory.md R65; 42_ctr_stream.md R196;
43_chunk_mac.md R244).
-/

namespace Sys2Proof.Machine

/-- The byte operand `IBUF[0..ILEN)` (R31, R92). -/
def State.operand (s : State) : List Byte := s.ibuf.readRange 0 s.ilen.toNat

/-- The key in a slot, if its valid flag is 1; the bytes of an invalid slot are never used (R23). -/
def State.slotKey? (s : State) (sa : Slot) : Option Block := if s.kv[sa] then some s.k[sa] else none

/-- `ILEN` of `AESENC`, `AESDEC`, `KLOAD`, `KUNWRAPK` (R65). -/
def oneBlockLen (n : BitVec 16) : Bool := n.toNat == 16

/-- `ILEN` of `KWRAP`, `KUNWRAP`, `NSPLIT`, `NUNWRAP` (R65). -/
def keyLen (n : BitVec 16) : Bool := n.toNat == 16 || n.toNat == 32

/-- `ILEN` of `NMERGE` (R65). -/
def fileKeyLen (n : BitVec 16) : Bool := n.toNat == 32

/-- `ILEN` of `CBCENC`, `CBCDEC` (R65, R167): a multiple of 16 from 16 to 4096. -/
def cbcLen (n : BitVec 16) : Bool := n.toNat != 0 && n.toNat % 16 == 0 && decide (n.toNat ≤ bufsz)

/-- `ILEN` of `ATTRENC` (R65, R170): 0 to 4092. -/
def recordLen (n : BitVec 16) : Bool := decide (n.toNat ≤ bufsz - attrMagic.length)

/-- `ILEN` of `PWKDF` (R65, R291): 1 to 4096. -/
def passwordLen (n : BitVec 16) : Bool := n.toNat != 0 && decide (n.toNat ≤ bufsz)

/-- A stream length that is accepted (R192, R193, R243, R244): 1 to `2^63 - 1`. -/
def streamLen (v : BitVec 64) : Bool := v.toNat != 0 && decide (v.toNat ≤ lenMax)

/-- A pack size that is accepted (R244, R245). -/
def packSize (v : BitVec 64) : Bool := decide (v.toNat ≤ lenMax) || v.toNat == packAll

/-- The number of bytes a read of `count` consumes at `pos` of a stream of length `L` (R196); `none` is `E_READSIZE`. -/
def readSpan (L pos count : Nat) : Option Nat :=
  if L ≤ pos + count then some (L - pos)
  else if count < 16 then none
  else some (count - count % 16)

end Sys2Proof.Machine
end

