-- ==== Sys2Proof/Machine/Params.lean ====
section
/-!
DEFINITION. The CORE instance the machine runs with: the values the spec decides for `CTR_FIRST` (D16) and
`MAC_PER_BLOCK_AES` (D17), and the open parameters of the password derivation (D32).
-/

namespace Sys2Proof.Machine

/-- The instance of R7: `CTR_FIRST` = 0, `MAC_PER_BLOCK_AES` = false (log 5), `KDF_ROUNDS` and `KDF_SEED` open (log 4). -/
def params : Config where
  ctrFirst := 0
  macPerBlockAes := false
  kdfRounds := Config.openKdfRounds
  kdfSeed := Config.openKdfSeed

end Sys2Proof.Machine
end

