-- ==== Sys2Proof/Machine/Ops.lean ====
section
/-!
DEFINITION. The named operations commands are built of: how a command ends (60_exceptions.md R310, R313), and the writes of
`OBUF`, slots, `NK`, the stream context, `RES`; the draw; reset.
-/

namespace Sys2Proof.Machine

/-- What executing a command or a host move gives. -/
abbrev Result := Host.Outcome State Fault Refusal

/-- `raise E_X` (R313): `STATUS.ERR ← code(E_X)` and the command ends; nothing else changes beyond what the caller
changed before. This is the whole of taking an error: no state is saved and no control is transferred (R317). -/
def State.raise (s : State) (e : ErrCode) : Result := .next { s with err := e }

/-- A command that completes (R99, R310): `STATUS.ERR ← 0`. -/
def State.complete (s : State) : Result := .next { s with err := .ok }

/-- `OUT(v)` (R10): `OBUF[0..|v|) ← v; OLEN ← |v|`. -/
def State.out (s : State) (v : List Byte) : State :=
  { s with obuf := s.obuf.writeRange 0 v, olen := BitVec.ofNat 16 v.length }

/-- `OLEN ← 0` with the bytes of `OBUF` unchanged (R172). -/
def State.noOutput (s : State) : State := { s with olen := 0 }

/-- `K[SD] ← key; KV[SD] ← 1` (R166, R271, R291). -/
def State.setSlot (s : State) (sd : Slot) (key : Block) : State :=
  { s with k := s.k.set sd key, kv := s.kv.set sd true }

/-- `K[SD] ← 0^16; KV[SD] ← 0` (R272). -/
def State.clearSlot (s : State) (sd : Slot) : State :=
  { s with k := s.k.set sd (zeros 16), kv := s.kv.set sd false }

/-- The node key a raw value gives: 32 bytes are a file key and are split, 16 bytes are a folder key (R283, R284, R288). -/
def NodeKey.ofRaw (raw : List Byte) : NodeKey :=
  if raw.length = 32 then
    let parts := splitKey (sliceBytes 32 0 raw)
    { state := .file, key := parts.1, iv := parts.2.1, mac := parts.2.2 }
  else { state := .folder, key := sliceBytes 16 0 raw, iv := zeros 8, mac := zeros 8 }

/-- `NK ← n`. -/
def State.setNode (s : State) (n : NodeKey) : State := { s with nk := n }

/-- `S ← S'`. -/
def State.setStream (s : State) (S : Stream) : State := { s with stream := S }

/-- `RES ← v` (R37); every result fits in 64 bits (R307). -/
def State.setRes (s : State) (v : Nat) : State := { s with res := BitVec.ofNat 64 v }

/-- `SIN ← empty; SOUT ← empty` (R33). -/
def State.emptyQueues (s : State) : State := { s with sin := [], sout := [] }

/-- A fresh stream of length `L` (R192, R193). -/
def Stream.fresh (mode : StreamMode) (key : Block) (iv expmac : Bytes 8) (L : BitVec 64) : Stream :=
  { state := .active, mode := mode, key := key, iv := iv, expmac := expmac, len := L, pos := 0, ctr := 0,
    chunkmac := zeros 16, filemac := zeros 16, metamac := zeros 8 }

/-- The common end of `SOPENE` and `SOPEND`: the fresh stream of length `ARG0`, both queues empty, `INTEG ← 0` (R192, R193). -/
def State.openStream (s : State) (mode : StreamMode) (key : Block) (iv expmac : Bytes 8) : State :=
  ((s.setStream (Stream.fresh mode key iv expmac s.arg0)).emptyQueues).setInteg false

/-- `draw(24)` (R39): the next draw the state lists, or else the free value of the next draw number (log 2). -/
def State.drawBytes (s : State) : Bytes 24 :=
  match s.entropy with
  | r :: _ => r
  | [] => Config.entropy s.draws

/-- The entropy input after a draw: a listed draw is used up, or the draw number advances. -/
def State.afterDraw (s : State) : State :=
  match s.entropy with
  | _ :: rest => { s with entropy := rest }
  | [] => { s with draws := s.draws + 1 }

/-- Reset (R42, R352): every piece of CORE's state at its reset value. What lies outside CORE, the host's moves and
replies and the entropy input, is not reset (log 8). -/
def State.resetCore (s : State) : State :=
  { State.reset with moves := s.moves, replies := s.replies, entropy := s.entropy, draws := s.draws }

/-- The shape of the commands that transform `IBUF[0..ILEN)` under a slot key into `OBUF` (R140, R141, R164, R165, R167,
R168): the length check, then the slot check, then the output. -/
def slotCommand (lenOk : BitVec 16 → Bool) (f : Block → List Byte → List Byte) (sa : Slot) (s : State) : Result :=
  if lenOk s.ilen then
    match s.slotKey? sa with
    | some key => (s.out (f key s.operand)).complete
    | none => s.raise .keySlot
  else s.raise .badLen

end Sys2Proof.Machine
end

