-- ==== Sys2Proof/Machine/Wrap.lean ====
section
/-!
DEFINITION. Key wrapping, chained CBC and the attribute blob as functions (41_key_wrap_cbc.md R160 to R163, R169, R171).
-/

namespace Sys2Proof.Machine

/-- One block function applied to each 16-byte block of a 16- or 32-byte string on its own, with no chaining
(R160, R161; 90_conflicts.md C4). -/
def perBlock (f : Block → Block) (d : List Byte) : List Byte :=
  if d.length = 32 then (f (sliceBytes 16 0 d)).toList ++ (f (sliceBytes 16 16 d)).toList
  else (f (sliceBytes 16 0 d)).toList

/-- `kwrap(k, d)`, `|d|` = 16 or 32 (R160). -/
def kwrap (k : Block) (d : List Byte) : List Byte := perBlock (aesEnc k) d

/-- `kunwrap(k, d)`, `|d|` = 16 or 32 (R161). -/
def kunwrap (k : Block) (d : List Byte) : List Byte := perBlock (aesDec k) d

/-- `m` blocks of CBC encryption after the ciphertext block `prev` (R162). -/
def cbcEncFrom (k : Block) : Nat → Block → List Byte → List Byte
  | 0, _, _ => []
  | m + 1, prev, d =>
    let c := aesEnc k (xorBytes (sliceBytes 16 0 d) prev)
    c.toList ++ cbcEncFrom k m c (d.drop 16)

/-- `cbc_enc(k, d)`: zero IV, no padding (R162). -/
def cbcEnc (k : Block) (d : List Byte) : List Byte := cbcEncFrom k (d.length / 16) (zeros 16) d

/-- `m` blocks of CBC decryption after the ciphertext block `prev` (R163). -/
def cbcDecFrom (k : Block) : Nat → Block → List Byte → List Byte
  | 0, _, _ => []
  | m + 1, prev, c =>
    let b := sliceBytes 16 0 c
    (xorBytes (aesDec k b) prev).toList ++ cbcDecFrom k m b (c.drop 16)

/-- `cbc_dec(k, c)` (R163). -/
def cbcDec (k : Block) (c : List Byte) : List Byte := cbcDecFrom k (c.length / 16) (zeros 16) c

/-- `attr_pack(p)`: the magic, the record, and the least zero padding to a multiple of 16 (R169). -/
def attrPack (p : List Byte) : List Byte :=
  let t := attrMagic ++ p
  t ++ List.replicate ((16 - t.length % 16) % 16) 0

/-- `p` without its trailing zero bytes, all of them (R171). -/
def stripZeros (p : List Byte) : List Byte := (p.reverse.dropWhile (· == 0)).reverse

/-- `attr_unpack(k, c)`; `none` is `BAD` (R171). -/
def attrUnpack (k : Block) (c : List Byte) : Option (List Byte) :=
  if c.length = 0 ∨ c.length % 16 ≠ 0 ∨ bufsz < c.length then none
  else
    let t := cbcDec k c
    if t.take 4 ≠ attrMagic then none else some (stripZeros (t.drop 4))

end Sys2Proof.Machine
end

