-- ==== Sys2Proof/Machine/Attr.lean ====
section
/-!
DEFINITION. The attribute-blob commands under the node key (41_key_wrap_cbc.md): ATTRENC, ATTRDEC.
-/

namespace Sys2Proof.Machine

/-- `ATTRENC` (R170). -/
def execAttrenc (s : State) : Result :=
  if recordLen s.ilen then
    match s.nk.state with
    | .null => s.raise .keyAccess
    | .folder | .file => (s.out (cbcEnc s.nk.key (attrPack s.operand))).complete
  else s.raise .badLen

/-- What `ATTRDEC` decodes (R172): `ILEN > 4096` counts as `BAD`, with nothing read beyond the buffer. -/
def State.attrRecord (s : State) : Option (List Byte) :=
  if bufsz < s.ilen.toNat then none else attrUnpack s.nk.key s.operand

/-- `ATTRDEC` (R172, R173): a blob that does not decode is not an error. -/
def execAttrdec (s : State) : Result :=
  match s.nk.state with
  | .null => (s.setAttrbad true).raise .keyAccess
  | .folder | .file =>
    match s.attrRecord with
    | none => (s.setAttrbad true).noOutput.complete
    | some p => ((s.setAttrbad false).out p).complete

end Sys2Proof.Machine
end

