-- ==== Sys2Proof/Machine/Chunk.lean ====
section
/-!
DEFINITION. Chunk boundaries, the chained MAC folder, MetaMac and chunk packing as functions (43_chunk_mac.md
R230 to R241). `isBoundary`, `nextBoundary` and the MAC steps are what the commands use; `boundaries` and
`streamMac` are the spec's whole-stream definitions of the same things.
-/

namespace Sys2Proof.Machine

/-- The growing phase of `boundaries` (R230): up to `n` further boundaries from `cur`, the next increment being
`idx * 131072`; with the boundary it stops at. -/
def growPhase (L : Nat) : Nat → Nat → Nat → List Nat × Nat
  | 0, _, cur => ([], cur)
  | n + 1, idx, cur =>
    if cur + idx * chunkUnit < L then
      let rest := growPhase L n (idx + 1) (cur + idx * chunkUnit)
      ((cur + idx * chunkUnit) :: rest.1, rest.2)
    else ([], cur)

/-- The fixed phase of `boundaries` (R230), at most `n` further boundaries. -/
def fixedPhase (L : Nat) : Nat → Nat → List Nat
  | 0, _ => []
  | n + 1, cur => if cur + chunkFixed < L then (cur + chunkFixed) :: fixedPhase L n (cur + chunkFixed) else []

/-- `boundaries(L)` (R230). The fixed phase advances by 1048576 below `L`, so `L / 1048576 + 1` turns suffice. -/
def boundaries (L : Nat) : List Nat :=
  let g := growPhase L chunkGrow 1 0
  0 :: (g.1 ++ fixedPhase L (L / chunkFixed + 1) g.2)

/-- The set `G` of R231: `131072 * k(k+1)/2` for `k` = 1 to 8. -/
def growBoundaries : List Nat := [131072, 393216, 786432, 1310720, 1966080, 2752512, 3670016, 4718592]

/-- The last member of `G`, where the fixed phase starts (R231). -/
def growEnd : Nat := 4718592

/-- `isBoundary(L, p)` in the closed form of R231. -/
def isBoundary (L p : Nat) : Bool :=
  p == 0 || (decide (p < L) && growBoundaries.contains p)
    || (decide (p < L) && decide (growEnd < p) && (p - growEnd) % chunkFixed == 0)

/-- The least member above `b` of the unbounded boundary sequence that R231 cuts at `L`. -/
def boundaryAbove (b : Nat) : Nat :=
  match growBoundaries.find? (fun g => decide (b < g)) with
  | some g => g
  | none => growEnd + ((b - growEnd) / chunkFixed + 1) * chunkFixed

/-- The least boundary of `L` above `b`, if there is one (R231, R243). -/
def nextBoundary (L b : Nat) : Option Nat :=
  if boundaryAbove b < L then some (boundaryAbove b) else none

/-- `chunkend(L, b)`: the least boundary above `b`, or `L` (R231). -/
def chunkEnd (L b : Nat) : Nat := (nextBoundary L b).getD L

/-- `mac_reset(v)` = `v ‖ v` (R234). -/
def macReset (v : Bytes 8) : Block := joinHalves v v

/-- `mac_acc(c, x)`: the bytes of `x` xored into the first `|x|` bytes of `c` (R235). -/
def macAcc (acc : Block) (x : List Byte) : Block := Vector.ofFn fun i => acc[i] ^^^ x.getD i.val 0

/-- `mac_fold(k, f, c)` (R236). -/
def macFold (k f c : Block) : Block := aesEnc k (xorBytes f c)

/-- `metamac(f)` (R238). -/
def metamac (f : Block) : Bytes 8 :=
  Vector.ofFn fun i => if i.val < 4 then f[i.val]'(by omega) ^^^ f[i.val + 4]'(by omega)
    else f[i.val + 4]'(by omega) ^^^ f[i.val + 8]'(by omega)

/-- Step (e) of R198: the plaintext block enters the chunk MAC, which `MAC_PER_BLOCK_AES` then encrypts (R212). -/
def macBlock (cfg : Config) (k c : Block) (plain : List Byte) : Block :=
  if cfg.macPerBlockAes then aesEnc k (macAcc c plain) else macAcc c plain

/-- The inner loop of R240: `n` blocks of one chunk's plaintext. -/
def chunkMacBlocks (cfg : Config) (k : Block) : Nat → Block → List Byte → Block
  | 0, c, _ => c
  | n + 1, c, x => chunkMacBlocks cfg k n (macBlock cfg k c (x.take 16)) (x.drop 16)

/-- The outer loop of R240 over the chunks that start at the listed boundaries. -/
def foldChunks (cfg : Config) (k : Block) (v : Bytes 8) (P : List Byte) : List Nat → Block → Block
  | [], f => f
  | lo :: rest, f =>
    let x := (P.take (chunkEnd P.length lo)).drop lo
    foldChunks cfg k v P rest (macFold k f (chunkMacBlocks cfg k ((x.length + 15) / 16) (macReset v) x))

/-- `streammac(k, v, P)` (R240). -/
def streamMac (cfg : Config) (k : Block) (v : Bytes 8) (P : List Byte) : Bytes 8 :=
  metamac (foldChunks cfg k v P (boundaries P.length) (zeros 16))

/-- The while loop of `packlen` (R241), at most `n` turns. -/
def absorbChunks (L P b : Nat) : Nat → Nat → Nat
  | 0, e => e
  | n + 1, e => if (P = packAll ∨ e - b < P) ∧ e < L then absorbChunks L P b n (chunkEnd L e) else e

/-- `packlen(L, P, b)` (R241). A stream of length `L` has at most `8 + ceil(L / 1048576)` chunks (R232), which bounds
the turns of the loop. -/
def packlen (L P b : Nat) : Nat := absorbChunks L P b (L / chunkFixed + 9) (chunkEnd L b) - b

end Sys2Proof.Machine
end

