-- ==== Sys2Proof/Machine/Boundary.lean ====
section
/-!
DEFINITION. The boundary and packing queries (43_chunk_mac.md): BNDNEXT, PACKNEXT.
-/

namespace Sys2Proof.Machine

/-- `BNDNEXT` (R243). -/
def execBndnext (s : State) : Result :=
  if streamLen s.arg0 then
    match nextBoundary s.arg0.toNat s.arg1.toNat with
    | some p => ((s.setRes p).setNone false).complete
    | none => ((s.setRes s.arg0.toNat).setNone true).complete
  else s.raise .badLen

/-- `PACKNEXT` (R244): three checks, each `E_BADLEN`. -/
def execPacknext (s : State) : Result :=
  if streamLen s.arg0 && packSize s.packsz && isBoundary s.arg0.toNat s.arg1.toNat then
    (s.setRes (packlen s.arg0.toNat s.packsz.toNat s.arg1.toNat)).complete
  else s.raise .badLen

end Sys2Proof.Machine
end

