-- ==== Sys2Proof/Machine/Cipher.lean ====
section
/-!
DEFINITION. The commands under a slot key: AESENC, AESDEC (40_aes_block.md), KWRAP, KUNWRAP, KUNWRAPK, CBCENC, CBCDEC
(41_key_wrap_cbc.md).
-/

namespace Sys2Proof.Machine

/-- `AESENC kA` (R140). -/
def execAesenc (sa : Slot) (s : State) : Result :=
  slotCommand oneBlockLen (fun key d => (aesEnc key (sliceBytes 16 0 d)).toList) sa s

/-- `AESDEC kA` (R141). -/
def execAesdec (sa : Slot) (s : State) : Result :=
  slotCommand oneBlockLen (fun key d => (aesDec key (sliceBytes 16 0 d)).toList) sa s

/-- `KWRAP kA` (R164). -/
def execKwrap (sa : Slot) (s : State) : Result := slotCommand keyLen kwrap sa s

/-- `KUNWRAP kA` (R165). -/
def execKunwrap (sa : Slot) (s : State) : Result := slotCommand keyLen kunwrap sa s

/-- `KUNWRAPK kA, kD` (R166): the old key is read before the slot is written, so `SA = SD` is allowed. -/
def execKunwrapk (sa sd : Slot) (s : State) : Result :=
  if oneBlockLen s.ilen then
    match s.slotKey? sa with
    | some key => (s.setSlot sd (aesDec key (sliceBytes 16 0 s.operand))).complete
    | none => s.raise .keySlot
  else s.raise .badLen

/-- `CBCENC kA` (R167). -/
def execCbcenc (sa : Slot) (s : State) : Result := slotCommand cbcLen cbcEnc sa s

/-- `CBCDEC kA` (R168). -/
def execCbcdec (sa : Slot) (s : State) : Result := slotCommand cbcLen cbcDec sa s

end Sys2Proof.Machine
end

