-- ==== Sys2Proof/Machine/Node.lean ====
section
/-!
DEFINITION. The node-key commands (44_key_hierarchy.md): NSPLIT, NUNWRAP, NMERGE, NREAD, NCLEAR.
-/

namespace Sys2Proof.Machine

/-- `NSPLIT` (R283). -/
def execNsplit (s : State) : Result :=
  if keyLen s.ilen then (s.setNode (NodeKey.ofRaw s.operand)).complete
  else s.raise .badLen

/-- `NUNWRAP kA` (R284): an invalid slot clears `NK` before the error is raised. -/
def execNunwrap (sa : Slot) (s : State) : Result :=
  if keyLen s.ilen then
    match s.slotKey? sa with
    | some key => (s.setNode (NodeKey.ofRaw (kunwrap key s.operand))).complete
    | none => (s.setNode NodeKey.null).raise .keySlot
  else s.raise .badLen

/-- `NMERGE` (R285): `IBUF[0..32)` is `key ‖ iv ‖ mac`. -/
def execNmerge (s : State) : Result :=
  if fileKeyLen s.ilen then
    (s.out (mergeKey (sliceBytes 16 0 s.operand) (sliceBytes 8 16 s.operand) (sliceBytes 8 24 s.operand)).toList).complete
  else s.raise .badLen

/-- `NREAD` (R286). -/
def execNread (s : State) : Result :=
  match s.nk.state with
  | .null => s.raise .keyAccess
  | .file => (s.out (s.nk.key.toList ++ s.nk.iv.toList ++ s.nk.mac.toList)).complete
  | .folder => (s.out s.nk.key.toList).complete

/-- `NCLEAR` (R287). -/
def execNclear (s : State) : Result := (s.setNode NodeKey.null).complete

end Sys2Proof.Machine
end

