-- ==== Sys2Proof/Machine/Slots.lean ====
section
/-!
DEFINITION. The slot commands (44_key_hierarchy.md): KLOAD, KCLEAR, PWKDF.
-/

namespace Sys2Proof.Machine

/-- `KLOAD kD` (R271). -/
def execKload (sd : Slot) (s : State) : Result :=
  if oneBlockLen s.ilen then (s.setSlot sd (sliceBytes 16 0 s.operand)).complete
  else s.raise .badLen

/-- `KCLEAR kD` (R272). -/
def execKclear (sd : Slot) (s : State) : Result := (s.clearSlot sd).complete

/-- `PWKDF kD` (R291). -/
def execPwkdf (sd : Slot) (s : State) : Result :=
  if passwordLen s.ilen then (s.setSlot sd (pwkdf params s.operand)).complete
  else s.raise .badLen

end Sys2Proof.Machine
end

