-- ==== Sys2Proof/Machine/Keystream.lean ====
section
/-!
DEFINITION. The block step of the streaming engine and its repetition (42_ctr_stream.md R194 to R201).
-/

namespace Sys2Proof.Machine

/-- `ks(c) = AES_enc(key, iv ‖ be64(c))` (R194). -/
def keystream (key : Block) (iv : Bytes 8) (count : Nat) : Block := aesEnc key (joinHalves iv (be64 count))

/-- `b xor k[0..|b|)`, `|b| ≤ 16` (R198 step (d)). -/
def xorStream (b : List Byte) (ks : Block) : List Byte := List.zipWith (· ^^^ ·) b ks.toList

/-- Step (a) of R198: at a boundary the completed chunk MAC is folded, except at offset 0 (R239), and reset. -/
def Stream.startChunk (S : Stream) (p : Nat) : Stream :=
  if isBoundary S.len.toNat p then
    { S with
      filemac := if p = 0 then S.filemac else macFold S.key S.filemac S.chunkmac
      chunkmac := macReset S.iv }
  else S

/-- Steps (b) to (d) of R198: the output bytes of a block; the counter value used is `S.ctr + CTR_FIRST` (R195). -/
def Stream.blockOut (cfg : Config) (S : Stream) (b : List Byte) : List Byte :=
  xorStream b (keystream S.key S.iv (S.ctr.toNat + cfg.ctrFirst))

/-- The plaintext of a block, which the MAC folds in both modes (R199). -/
def Stream.plainOf (S : Stream) (b o : List Byte) : List Byte :=
  match S.mode with
  | .enc => b
  | .dec => o

/-- `blockstep(p, b)` (R198): the stream after it and the output bytes. -/
def Stream.blockStep (cfg : Config) (S : Stream) (p : Nat) (b : List Byte) : Stream × List Byte :=
  let S1 := S.startChunk p
  let o := S1.blockOut cfg b
  ({ S1 with
      ctr := S1.ctr + 1
      chunkmac := macBlock cfg S1.key S1.chunkmac (S1.plainOf b o) }, o)

/-- The loop of R197: `n` block steps from offset `p` over the bytes `x`, the last of which may be short. -/
def Stream.blockSteps (cfg : Config) : Nat → Stream → Nat → List Byte → Stream × List Byte
  | 0, S, _, _ => (S, [])
  | n + 1, S, p, x =>
    let r := S.blockStep cfg p (x.take 16)
    let rest := Stream.blockSteps cfg n r.1 (p + 16) (x.drop 16)
    (rest.1, r.2 ++ rest.2)

/-- The stream and the output after `x` is consumed at the current position (R197). -/
def Stream.consume (cfg : Config) (S : Stream) (x : List Byte) : Stream × List Byte :=
  let r := Stream.blockSteps cfg ((x.length + 15) / 16) S S.pos.toNat x
  ({ r.1 with pos := BitVec.ofNat 64 (S.pos.toNat + x.length) }, r.2)

/-- Finalisation (R201): the last fold, the MetaMac, and the stream is done. -/
def Stream.finalise (S : Stream) : Stream :=
  let f := macFold S.key S.filemac S.chunkmac
  { S with filemac := f, metamac := Machine.metamac f, state := .done }

/-- The integrity check fails (R202): a decrypting stream whose computed tag differs from the expected one. -/
def Stream.corrupt (S : Stream) : Bool := decide (S.mode = .dec) && S.metamac != S.expmac

end Sys2Proof.Machine
end

