-- ==== Sys2Proof/Machine/StreamCmds.lean ====
section
/-!
DEFINITION. The stream commands (42_ctr_stream.md): SOPENE, SOPEND, SREAD, SGETKEY, SGETMAC, SCLOSE, SSEEK, SWRITE.
-/

namespace Sys2Proof.Machine

/-- `SOPENE` (R192): bytes 0 to 15 of the draw are the key, 16 to 23 the IV. -/
def execSopene (s : State) : Result :=
  match s.stream.state with
  | .active | .done => s.raise .state
  | .closed =>
    if streamLen s.arg0 then
      let r := s.drawBytes.toList
      (s.afterDraw.openStream .enc (sliceBytes 16 0 r) (sliceBytes 8 16 r) (zeros 8)).complete
    else s.raise .badLen

/-- `SOPEND` (R193). -/
def execSopend (s : State) : Result :=
  match s.stream.state with
  | .active | .done => s.raise .state
  | .closed =>
    if streamLen s.arg0 then
      match s.nk.state with
      | .null | .folder => s.raise .keyAccess
      | .file => (s.openStream .dec s.nk.key s.nk.iv s.nk.mac).complete
    else s.raise .badLen

/-- The effects of a read of `n` bytes before finalisation (R197): `SIN`, `SOUT`, `S` and `RES`. -/
def State.readBytes (s : State) (n : Nat) : State :=
  let r := s.stream.consume params (s.sin.take n)
  { s with sin := s.sin.drop n, sout := s.sout ++ r.2, stream := r.1, res := BitVec.ofNat 64 n }

/-- The end of a read (R197, R201, R202): at the end of the stream it is finalised, and a failed integrity check is
raised after every effect of the read has been made. -/
def State.endRead (s : State) : Result :=
  if s.stream.pos = s.stream.len then
    let t := s.setStream s.stream.finalise
    if t.stream.corrupt then (t.setInteg true).raise .integrity else t.complete
  else s.complete

/-- `SREAD` (R197, R203, R211). -/
def execSread (s : State) : Result :=
  match s.stream.state with
  | .closed => s.raise .state
  | .done => (s.setRes 0).complete
  | .active =>
    match readSpan s.stream.len.toNat s.stream.pos.toNat s.arg0.toNat with
    | none => s.raise .readSize
    | some n => if s.sin.length < n then s.raise .underrun else (s.readBytes n).endRead

/-- `SGETKEY` (R206). -/
def execSgetkey (s : State) : Result :=
  match s.stream.state, s.stream.mode with
  | .closed, _ => s.raise .state
  | .active, .dec | .done, .dec => s.raise .state
  | .active, .enc | .done, .enc => (s.out (s.stream.key.toList ++ s.stream.iv.toList)).complete

/-- `SGETMAC` (R207). -/
def execSgetmac (s : State) : Result :=
  match s.stream.state with
  | .closed => s.raise .state
  | .active => s.raise .notReady
  | .done => (s.out s.stream.metamac.toList).complete

/-- `SCLOSE` (R208). -/
def execSclose (s : State) : Result :=
  (((s.setStream Stream.closed).emptyQueues).setInteg false).complete

/-- `SSEEK` (R209). -/
def execSseek (s : State) : Result := s.raise .unsupported

/-- `SWRITE` (R210). -/
def execSwrite (s : State) : Result := s.raise .unsupported

end Sys2Proof.Machine
end

