-- ==== Sys2Proof/Machine/System.lean ====
section
/-!
DEFINITION. The housekeeping commands (45_system.md): NOP, RESET.
-/

namespace Sys2Proof.Machine

/-- `NOP` (R305). -/
def execNop (s : State) : Result := s.complete

/-- `RESET` (R306): reset, then `STATUS.ERR ← 0`, which reset also gives (R352). -/
def execReset (s : State) : Result := s.resetCore.complete

end Sys2Proof.Machine
end

