-- ==== Sys2Proof/Machine/Dispatch.lean ====
section
/-!
DEFINITION. One arm per command (30_encoding.md R93), each a direct call of its meaning.
-/

namespace Sys2Proof.Machine

def exec (i : Instr) (s : State) : Host.Outcome State Fault Refusal :=
  match i with
  | .nop => Sys2Proof.Machine.execNop s
  | .aesenc sa => Sys2Proof.Machine.execAesenc sa s
  | .aesdec sa => Sys2Proof.Machine.execAesdec sa s
  | .reset => Sys2Proof.Machine.execReset s
  | .kload sd => Sys2Proof.Machine.execKload sd s
  | .kclear sd => Sys2Proof.Machine.execKclear sd s
  | .kwrap sa => Sys2Proof.Machine.execKwrap sa s
  | .kunwrap sa => Sys2Proof.Machine.execKunwrap sa s
  | .kunwrapk sa sd => Sys2Proof.Machine.execKunwrapk sa sd s
  | .cbcenc sa => Sys2Proof.Machine.execCbcenc sa s
  | .cbcdec sa => Sys2Proof.Machine.execCbcdec sa s
  | .attrenc => Sys2Proof.Machine.execAttrenc s
  | .attrdec => Sys2Proof.Machine.execAttrdec s
  | .nsplit => Sys2Proof.Machine.execNsplit s
  | .nunwrap sa => Sys2Proof.Machine.execNunwrap sa s
  | .nmerge => Sys2Proof.Machine.execNmerge s
  | .nread => Sys2Proof.Machine.execNread s
  | .nclear => Sys2Proof.Machine.execNclear s
  | .pwkdf sd => Sys2Proof.Machine.execPwkdf sd s
  | .sopene => Sys2Proof.Machine.execSopene s
  | .sopend => Sys2Proof.Machine.execSopend s
  | .sread => Sys2Proof.Machine.execSread s
  | .sgetkey => Sys2Proof.Machine.execSgetkey s
  | .sgetmac => Sys2Proof.Machine.execSgetmac s
  | .sclose => Sys2Proof.Machine.execSclose s
  | .sseek => Sys2Proof.Machine.execSseek s
  | .swrite => Sys2Proof.Machine.execSwrite s
  | .bndnext => Sys2Proof.Machine.execBndnext s
  | .packnext => Sys2Proof.Machine.execPacknext s

end Sys2Proof.Machine
end

