-- ==== Sys2Proof/Machine/HostMoves.lean ====
section
/-!
DEFINITION. The host moves (10_state.md R43, R44) and executing a command word (30_encoding.md R99).
-/

namespace Sys2Proof.Machine

/-- Executing `WriteReg(0, w)` (R99): a legal word runs its command, which writes `STATUS.ERR` itself; an illegal word
raises `E_ILLEGAL` and changes nothing else (R94). -/
def executeWord (w : Word) (s : State) : Result :=
  match decode w with
  | .ok i => exec i s
  | .error _ => s.raise .illegal

/-- The value of a register the host may read, 1 to 10 (R34); `none` for any other number. -/
def State.regValue (s : State) (n : Nat) : Option Nat :=
  match n with
  | 1 => some s.status.toNat
  | 2 => some s.arg0.toNat
  | 3 => some s.arg1.toNat
  | 4 => some s.res.toNat
  | 5 => some s.ilen.toNat
  | 6 => some s.olen.toNat
  | 7 => some s.stream.pos.toNat
  | 8 => some s.stream.len.toNat
  | 9 => some s.kvalid.toNat
  | 10 => some s.packsz.toNat
  | _ => none

/-- A read move returns a value to the host. -/
def State.reply (s : State) (r : Reply) : State := { s with replies := s.replies ++ [r] }

/-- `WriteReg(n, v)` (R43): a value that does not fit is refused; register 0 executes the word. -/
def writeRegister (n v : Nat) (s : State) : Result :=
  match writableWidth n with
  | none => if n ≤ 10 then .refused .registerReadOnly else .refused .noSuchRegister
  | some w =>
    if v < 2 ^ w then
      match n with
      | 0 => executeWord (BitVec.ofNat 16 v) s
      | 2 => .next { s with arg0 := BitVec.ofNat 64 v }
      | 3 => .next { s with arg1 := BitVec.ofNat 64 v }
      | 5 => .next { s with ilen := BitVec.ofNat 16 v }
      | _ => .next { s with packsz := BitVec.ofNat 64 v }
    else .refused .valueTooWide

/-- `ReadReg(n)` (R43). -/
def readRegister (n : Nat) (s : State) : Result :=
  match s.regValue n with
  | some v => .next (s.reply (.number v))
  | none => if n = 0 then .refused .registerWriteOnly else .refused .noSuchRegister

/-- One host move (R43); a move outside the "allowed when" column is refused by name (R44). -/
def performMove (m : HostMove) (s : State) : Result :=
  match m with
  | .writeReg n v => writeRegister n v s
  | .readReg n => readRegister n s
  | .writeIBUF off v =>
    if off + v.length ≤ bufsz then .next { s with ibuf := s.ibuf.writeRange off v } else .refused .ibufOutOfRange
  | .readOBUF off n =>
    if off + n ≤ s.olen.toNat then .next (s.reply (.bytes (s.obuf.readRange off n))) else .refused .obufOutOfRange
  | .pushSIN v => .next { s with sin := s.sin ++ v }
  | .popSOUT n =>
    if n ≤ s.sout.length then .next ({ s with sout := s.sout.drop n }.reply (.bytes (s.sout.take n)))
    else .refused .soutTooShort
  | .hardReset => .next s.resetCore

end Sys2Proof.Machine
end

