-- ==== Sys2Proof/Machine/Step.lean ====
section
/-!
DEFINITION. One step of the machine: the next host move, in order and atomic (10_state.md R43; 20_memory.md R68, R72).
-/

namespace Sys2Proof.Machine

/-- One step: the first pending host move is made. With none pending CORE waits and nothing changes (R316, R350; log 7). -/
def step (s : State) : Host.Outcome State Fault Refusal :=
  match s.moves with
  | [] => .next s
  | m :: rest => performMove m { s with moves := rest }

/-- `s` with the host about to write the instruction whose bits are `w` (those at or above `nbits` zero) to `CMD`, before
any other move: CORE takes the command word from that write and fetches nothing (R38, R74; log 1). -/
def State.withFetchWord (s : State) (nbits w : Nat) : State :=
  { s with moves := .writeReg 0 (w % 2 ^ nbits % 2 ^ 16) :: s.moves }

end Sys2Proof.Machine
end

