-- ==== Sys2Proof/Safety.lean ====
section
/-!
DEFINITION. The terms claims are stated in: the tables of the spec that say which command writes and raises what, the invariant
of the machine, what the host can see, and a command's output.
-/

namespace Sys2Proof

/-- The commands that write key slots (R23). -/
def Instr.writesSlots : Instr → Bool
  | .kload _ | .kclear _ | .kunwrapk _ _ | .pwkdf _ | .reset => true
  | .nop | .aesenc _ | .aesdec _ | .kwrap _ | .kunwrap _ | .cbcenc _ | .cbcdec _ | .attrenc | .attrdec | .nsplit
  | .nunwrap _ | .nmerge | .nread | .nclear | .sopene | .sopend | .sread | .sgetkey | .sgetmac | .sclose | .sseek
  | .swrite | .bndnext | .packnext => false

/-- The commands that write `NK` (R27). -/
def Instr.writesNode : Instr → Bool
  | .nsplit | .nunwrap _ | .nclear | .reset => true
  | .nop | .aesenc _ | .aesdec _ | .kload _ | .kclear _ | .kwrap _ | .kunwrap _ | .kunwrapk _ _ | .cbcenc _
  | .cbcdec _ | .attrenc | .attrdec | .nmerge | .nread | .pwkdf _ | .sopene | .sopend | .sread | .sgetkey
  | .sgetmac | .sclose | .sseek | .swrite | .bndnext | .packnext => false

/-- The commands that may change `S`, `SIN` or `SOUT` (R33, R61, R191). -/
def Instr.writesStream : Instr → Bool
  | .sopene | .sopend | .sread | .sclose | .reset => true
  | .nop | .aesenc _ | .aesdec _ | .kload _ | .kclear _ | .kwrap _ | .kunwrap _ | .kunwrapk _ _ | .cbcenc _
  | .cbcdec _ | .attrenc | .attrdec | .nsplit | .nunwrap _ | .nmerge | .nread | .nclear | .pwkdf _ | .sgetkey
  | .sgetmac | .sseek | .swrite | .bndnext | .packnext => false

/-- The commands that may change `OBUF` or `OLEN` (R61, R172, R306). -/
def Instr.writesOutput : Instr → Bool
  | .aesenc _ | .aesdec _ | .kwrap _ | .kunwrap _ | .cbcenc _ | .cbcdec _ | .attrenc | .attrdec | .nmerge | .nread
  | .sgetkey | .sgetmac | .reset => true
  | .nop | .kload _ | .kclear _ | .kunwrapk _ _ | .nsplit | .nunwrap _ | .nclear | .pwkdf _ | .sopene | .sopend
  | .sread | .sclose | .sseek | .swrite | .bndnext | .packnext => false

/-- The commands that may change `RES` (R37, R306). -/
def Instr.writesRes : Instr → Bool
  | .sread | .bndnext | .packnext | .reset => true
  | .nop | .aesenc _ | .aesdec _ | .kload _ | .kclear _ | .kwrap _ | .kunwrap _ | .kunwrapk _ _ | .cbcenc _
  | .cbcdec _ | .attrenc | .attrdec | .nsplit | .nunwrap _ | .nmerge | .nread | .nclear | .pwkdf _ | .sopene
  | .sopend | .sgetkey | .sgetmac | .sclose | .sseek | .swrite => false

/-- The commands that may change `INTEG` (R36). -/
def Instr.writesInteg : Instr → Bool
  | .sread | .sopene | .sopend | .sclose | .reset => true
  | .nop | .aesenc _ | .aesdec _ | .kload _ | .kclear _ | .kwrap _ | .kunwrap _ | .kunwrapk _ _ | .cbcenc _
  | .cbcdec _ | .attrenc | .attrdec | .nsplit | .nunwrap _ | .nmerge | .nread | .nclear | .pwkdf _ | .sgetkey
  | .sgetmac | .sseek | .swrite | .bndnext | .packnext => false

/-- The commands that may change `ATTRBAD` (R36). -/
def Instr.writesAttrbad : Instr → Bool
  | .attrdec | .reset => true
  | .nop | .aesenc _ | .aesdec _ | .kload _ | .kclear _ | .kwrap _ | .kunwrap _ | .kunwrapk _ _ | .cbcenc _
  | .cbcdec _ | .attrenc | .nsplit | .nunwrap _ | .nmerge | .nread | .nclear | .pwkdf _ | .sopene | .sopend
  | .sread | .sgetkey | .sgetmac | .sclose | .sseek | .swrite | .bndnext | .packnext => false

/-- The commands that may change `NONE` (R36). -/
def Instr.writesNone : Instr → Bool
  | .bndnext | .reset => true
  | .nop | .aesenc _ | .aesdec _ | .kload _ | .kclear _ | .kwrap _ | .kunwrap _ | .kunwrapk _ _ | .cbcenc _
  | .cbcdec _ | .attrenc | .attrdec | .nsplit | .nunwrap _ | .nmerge | .nread | .nclear | .pwkdf _ | .sopene
  | .sopend | .sread | .sgetkey | .sgetmac | .sclose | .sseek | .swrite | .packnext => false

/-- The errors a command can raise (R315), in the order it checks them. -/
def Instr.errors : Instr → List Machine.ErrCode
  | .nop | .reset | .kclear _ | .nclear | .sclose => []
  | .aesenc _ | .aesdec _ | .kwrap _ | .kunwrap _ | .kunwrapk _ _ | .cbcenc _ | .cbcdec _ => [.badLen, .keySlot]
  | .kload _ | .nsplit | .nmerge | .pwkdf _ | .bndnext | .packnext => [.badLen]
  | .nunwrap _ => [.badLen, .keySlot]
  | .attrenc => [.badLen, .keyAccess]
  | .attrdec => [.keyAccess]
  | .nread => [.keyAccess]
  | .sopene => [.state, .badLen]
  | .sopend => [.state, .badLen, .keyAccess]
  | .sread => [.state, .readSize, .underrun, .integrity]
  | .sgetkey => [.state]
  | .sgetmac => [.state, .notReady]
  | .sseek | .swrite => [.unsupported]

namespace Machine

/-- The invariant of the stream context: R29, with what opening, closing and finalising leave (R192, R193, R201, R208). -/
abbrev Stream.Inv (S : Stream) : Prop :=
  S.len.toNat ≤ lenMax ∧
  (S.state = .closed → S = Stream.closed) ∧
  (S.state = .active → S.pos.toNat < S.len.toNat ∧ S.pos.toNat % 16 = 0 ∧ S.ctr.toNat = S.pos.toNat / 16 ∧
    S.metamac = zeros 8) ∧
  (S.state = .done → 0 < S.len.toNat ∧ S.pos = S.len ∧ S.ctr.toNat = (S.len.toNat + 15) / 16 ∧
    S.metamac = Machine.metamac S.filemac) ∧
  (S.mode = .enc → S.expmac = zeros 8)

/-- The invariant of the node key: a field that is not valid is zero (R26, R283, R284, R287, R42). -/
abbrev NodeKey.Inv (n : NodeKey) : Prop :=
  (n.state = .null → n = NodeKey.null) ∧ (n.state = .folder → n.iv = zeros 8 ∧ n.mac = zeros 8)

/-- The invariant of the machine: the buffers are canonical, `OLEN` lies in `OBUF` (R32), an invalid slot is zero (R272, R42),
`NK` and `S` keep theirs, and `INTEG` = 1 exactly when a finished decrypting stream's tag differs from the expected one
(R36, R202, R207). -/
abbrev State.Inv (s : State) : Prop :=
  s.ibuf.wf = true ∧ s.obuf.wf = true ∧ s.olen.toNat ≤ bufsz ∧
  (∀ j : Fin 16, s.kv[j] = false → s.k[j] = zeros 16) ∧
  s.nk.Inv ∧ s.stream.Inv ∧
  (s.integ = true ↔ s.stream.state = .done ∧ s.stream.mode = .dec ∧ s.stream.metamac ≠ s.stream.expmac)

/-- A command completes with output `v` (R10 `OUT(v)`): `OBUF[0..|v|)` is `v`, `OLEN` = `|v|`, `STATUS.ERR` = 0, every
other byte of `OBUF` and all other state is as before. -/
def GivesOutput (r : Result) (s : State) (v : List Byte) : Prop :=
  ∃ t : State, r = .next t ∧
    t = { s with obuf := t.obuf, olen := BitVec.ofNat 16 v.length, err := .ok } ∧
    (∀ j, j < v.length → t.obuf.read j = v.getD j 0) ∧
    ∀ a, v.length ≤ a → t.obuf.read a = s.obuf.read a

/-- `IBUF[0..ILEN)` holds the byte string `v`. -/
def State.holds (s : State) (v : List Byte) : Prop :=
  s.ilen.toNat = v.length ∧ ∀ j, j < v.length → s.ibuf.read j = v.getD j 0

/-- R43's "allowed when" column. -/
def allowedMove (m : HostMove) (s : State) : Bool :=
  match m with
  | .readOBUF off n => decide (off + n ≤ s.olen.toNat)
  | .popSOUT n => decide (n ≤ s.sout.length)
  | .writeReg n v => (HostMove.writeReg n v).wellFormed
  | .readReg n => (HostMove.readReg n).wellFormed
  | .writeIBUF off v => (HostMove.writeIBUF off v).wellFormed
  | .pushSIN _ => true
  | .hardReset => true

/-- Two states the host cannot tell apart by one read move: they agree on registers 1 to 10, on `OBUF[0..OLEN)` and on
`SOUT`, and may differ in everything else (R24, R44). -/
def sameVisible (s t : State) : Prop :=
  (∀ n, s.regValue n = t.regValue n) ∧ s.olen = t.olen ∧ (∀ a, a < s.olen.toNat → s.obuf.read a = t.obuf.read a) ∧
    s.sout = t.sout

/-- CBC encryption of whole blocks (R162): `c[j] = AES_enc(k, d[j] xor c[j-1])`. -/
def cbcEncBlocks (k : Block) : Block → List Block → List Block
  | _, [] => []
  | prev, d :: ds => let e := aesEnc k (xorBytes d prev); e :: cbcEncBlocks k e ds

/-- CBC decryption of whole blocks (R163): `d[j] = AES_dec(k, c[j]) xor c[j-1]`. -/
def cbcDecBlocks (k : Block) : Block → List Block → List Block
  | _, [] => []
  | prev, e :: es => xorBytes (aesDec k e) prev :: cbcDecBlocks k e es

/-- The bytes of a list of blocks, in order. -/
def blockBytes (bs : List Block) : List Byte := bs.flatMap Vector.toList

/-- The fragment sequence of a stream of length `L` for pack size `P` from boundary `b` (R241), at most `n` fragments. -/
def fragments (L P : Nat) : Nat → Nat → List Nat
  | 0, _ => []
  | n + 1, b => if b < L then packlen L P b :: fragments L P n (b + packlen L P b) else []

/-- `SREAD` with each of the counts in turn, as long as no read fails (R204). -/
def readSequence : List (BitVec 64) → State → Option State
  | [], s => some s
  | a :: counts, s =>
    match exec .sread { s with arg0 := a } with
    | .next t => if t.err = .ok ∨ t.err = .integrity then readSequence counts t else none
    | .fault _ => none
    | .refused _ => none

/-- Whether a move only reads (R43). -/
def isReadMove : HostMove → Bool
  | .readReg _ => true
  | .readOBUF _ _ => true
  | .popSOUT _ => true
  | .writeReg _ _ => false
  | .writeIBUF _ _ => false
  | .pushSIN _ => false
  | .hardReset => false

end Machine
end Sys2Proof
end

