-- ==== Sys2Proof/Certificates/Slice0/Obligations.lean ====
section
/-!
DEFINITION. The statements for the provers. Each docstring says what is stated and which rules of the spec it rests on.
-/

section
open Sys2Proof Sys2Proof.Machine

/-! ### Encoding (30_encoding.md) -/

/-- Decode and encode agree in both directions (R93, R97, R99): every command comes back from its word, and a word that
decodes is the word of the command it decodes to. -/
def Obligations.DecodeAndEncodeAgree : Prop :=
  (∀ i : Instr, decode (encode i) = .ok i) ∧ ∀ (w : Word) (i : Instr), decode w = .ok i → encode i = w

/-- The illegal words are exactly those of R94, in its two clauses; executing one raises `E_ILLEGAL` and changes nothing
else; 227 opcodes are unassigned. -/
def Obligations.IllegalWordsRaiseIllegalOnly : Prop :=
  (∀ w : Word, decode w = .error .unassignedOpcode ↔ ∀ r ∈ opcodeTable, r.opc ≠ Word.opc w) ∧
  (∀ w : Word, decode w = .error .nonzeroUnusedField ↔
    ∃ r ∈ opcodeTable, r.opc = Word.opc w ∧
      ((r.format = .N ∨ r.format = .D) ∧ Word.sa w ≠ 0 ∨ (r.format = .N ∨ r.format = .A) ∧ Word.sd w ≠ 0)) ∧
  (∀ (w : Word) (s : State) (e : Illegal), decode w = .error e → executeWord w s = .next { s with err := .illegal }) ∧
  ((List.range 256).filter fun n => opcodeTable.all fun r => r.opc.toNat != n).length = 227

/-- A few words written out from R93 decode to the command they stand for (95_test_vectors.md V30-1). -/
def Obligations.WrittenOutWordsDecode : Prop :=
  decode 0x0000 = .ok .nop ∧ decode 0x0130 = .ok (.aesenc 3) ∧ decode 0x0F00 = .ok .reset ∧
  decode 0x100F = .ok (.kload 15) ∧ decode 0x2201 = .ok (.kunwrapk 0 1) ∧ decode 0x2210 = .ok (.kunwrapk 1 0) ∧
  decode 0x3150 = .ok (.nunwrap 5) ∧ decode 0x4200 = .ok .sread ∧ decode 0x5100 = .ok .packnext ∧
  decode 0x0101 = .error .nonzeroUnusedField ∧ decode 0x1010 = .error .nonzeroUnusedField ∧
  decode 0x2500 = .error .unassignedOpcode

/-! ### The step and its outcomes -/

/-- A step whose next host move writes a decodable word to `CMD` runs exactly the decoded command, with that move used up
(R72, R74, R99). -/
def Obligations.StepRunsTheDecodedCommand : Prop :=
  ∀ (s : State) (rest : List HostMove) (w : Word) (i : Instr),
    s.moves = .writeReg 0 w.toNat :: rest → decode w = .ok i → step s = exec i { s with moves := rest }

/-- A step never faults, and it is refused exactly when a move is pending that R43 does not allow (R44, R310); with no move
pending nothing changes (the model's choice, log 7). -/
def Obligations.StepStopsOnlyOnADisallowedMove : Prop :=
  ∀ s : State, (∀ f, step s ≠ .fault f) ∧ (s.moves = [] → step s = .next s) ∧
    ((∃ r, step s = .refused r) ↔ ∃ m rest, s.moves = m :: rest ∧ allowedMove m s = false)

/-- Every command, in every state, ends in a next state: it completes with `STATUS.ERR` 0 or it raises one of the errors R315
lists for it (R310, and R315, which the spec derives from the command rules). -/
def Obligations.EveryCommandCompletesOrRaisesItsErrors : Prop :=
  ∀ (i : Instr) (s : State), ∃ t, exec i s = .next t ∧ (t.err = .ok ∨ t.err ∈ i.errors)

/-- A command that raises an error changes nothing else, but for the three cases R313 lists. -/
def Obligations.FailingCommandChangesOnlyErr : Prop :=
  ∀ (i : Instr) (s t : State), exec i s = .next t → t.err ≠ .ok →
    (∃ sa, i = .nunwrap sa ∧ t.err = .keySlot ∧ t = { s with nk := NodeKey.null, err := .keySlot }) ∨
    (i = .attrdec ∧ t = { s with attrbad := true, err := .keyAccess }) ∨
    (i = .sread ∧ t.err = .integrity ∧ t.integ = true ∧ t.stream.state = .done) ∨
    t = { s with err := t.err }

/-! ### Which command writes which state -/

/-- Key slots and `NK` are changed only by their writers (R23, R27). -/
def Obligations.KeysChangeOnlyByTheirWriters : Prop :=
  ∀ (i : Instr) (s t : State), exec i s = .next t →
    (i.writesSlots = false → t.k = s.k ∧ t.kv = s.kv) ∧ (i.writesNode = false → t.nk = s.nk)

/-- The stream context, the queues and the output buffer are changed only by the commands that R61 and R191 give them. -/
def Obligations.StreamAndOutputChangeOnlyByTheirWriters : Prop :=
  ∀ (i : Instr) (s t : State), exec i s = .next t →
    (i.writesStream = false → t.stream = s.stream ∧ t.sin = s.sin ∧ t.sout = s.sout) ∧
    (i.writesOutput = false → t.olen = s.olen ∧ t.obuf = s.obuf)

/-- `IBUF`, `ILEN`, `ARG0`, `ARG1` and `PACKSZ` are changed by no command but `RESET` (R31, R37); `RES` and the flags only by
their writers (R36, R37). -/
def Obligations.OperandsAndFlagsChangeOnlyByTheirWriters : Prop :=
  ∀ (i : Instr) (s t : State), exec i s = .next t →
    (i ≠ .reset → t.ibuf = s.ibuf ∧ t.ilen = s.ilen ∧ t.arg0 = s.arg0 ∧ t.arg1 = s.arg1 ∧ t.packsz = s.packsz) ∧
    (i.writesRes = false → t.res = s.res) ∧ (i.writesInteg = false → t.integ = s.integ) ∧
    (i.writesAttrbad = false → t.attrbad = s.attrbad) ∧ (i.writesNone = false → t.noBoundary = s.noBoundary)

/-! ### The invariant and reset -/

/-- Every step keeps the invariant: canonical buffers, `OLEN` within `OBUF`, zeroed invalid slots and node fields, R29 and the
life cycle of the stream, and `INTEG` exactly when the finished stream's tag is wrong. -/
def Obligations.StepKeepsTheInvariant : Prop := ∀ s t : State, s.Inv → step s = .next t → t.Inv

/-- The reset state has the invariant. -/
def Obligations.ResetHasTheInvariant : Prop := State.reset.Inv

/-- `RESET` (word `0x0F00`) completes, gives the state `HardReset` gives, and every piece of state then has the value of R42's
table (R42, R306, R352). -/
def Obligations.ResetGivesTheTabulatedState : Prop :=
  encode .reset = 0x0F00 ∧
  ∀ s : State, ∃ t, exec .reset s = .next t ∧ performMove .hardReset s = .next t ∧
    (∀ j : Fin 16, t.kv[j] = false ∧ t.k[j] = zeros 16) ∧
    t.nk = { state := .null, key := zeros 16, iv := zeros 8, mac := zeros 8 } ∧
    t.stream = { state := .closed, mode := .enc, key := zeros 16, iv := zeros 8, expmac := zeros 8, len := 0,
                 pos := 0, ctr := 0, chunkmac := zeros 16, filemac := zeros 16, metamac := zeros 8 } ∧
    (∀ a, t.ibuf.read a = 0 ∧ t.obuf.read a = 0) ∧ t.sin = [] ∧ t.sout = [] ∧
    t.err = .ok ∧ t.integ = false ∧ t.attrbad = false ∧ t.noBoundary = false ∧
    (List.range 11).map t.regValue = [none, some 0, some 0, some 0, some 0, some 0, some 0, some 0, some 0, some 0,
      some 1048576]

/-- `NOP`, the all-zero word, clears `STATUS.ERR` and does nothing else (R305). -/
def Obligations.NopOnlyClearsErr : Prop :=
  encode .nop = 0x0000 ∧ decode 0x0000 = .ok .nop ∧ ∀ s : State, exec .nop s = .next { s with err := .ok }

/-! ### The block cipher (40_aes_block.md) -/

/-- `AES_dec` and `AES_enc` are inverse to each other for every key (R133 and R134, which the spec takes from general
knowledge). -/
def Obligations.AesEncryptionAndDecryptionAreInverse : Prop :=
  ∀ k b : Block, aesDec k (aesEnc k b) = b ∧ aesEnc k (aesDec k b) = b

/-- The S-box table is the formula of R125 over the inverse of R123, and `INVSBOX` is its inverse permutation (R126); the spec takes both from general knowledge. -/
def Obligations.SboxTableIsTheFieldFormula : Prop :=
  (∀ a b : Byte, (a = 0 ∧ b = 0) ∨ gmul a b = 1 →
    sbox a = b ^^^ b.rotateLeft 1 ^^^ b.rotateLeft 2 ^^^ b.rotateLeft 3 ^^^ b.rotateLeft 4 ^^^ 0x63) ∧
  (∀ a : Byte, a ≠ 0 → ∃ b, gmul a b = 1) ∧
  ∀ a : Byte, invSbox (sbox a) = a ∧ sbox (invSbox a) = a

/-- `AESENC` and `AESDEC` (words `0x0100 | SA << 4`, `0x0200 | SA << 4`) on one block under a valid slot complete with the
cipher's output; another length raises `E_BADLEN`, checked first, and an invalid slot `E_KEYSLOT`; only `OBUF[0..16)`, `OLEN` and
`STATUS.ERR` change (R140, R141). -/
def Obligations.BlockCommandsOutputTheCipher : Prop :=
  ∀ (sa : Slot) (s : State),
    encode (.aesenc sa) = 0x0100 ||| BitVec.ofNat 16 sa <<< 4 ∧ encode (.aesdec sa) = 0x0200 ||| BitVec.ofNat 16 sa <<< 4 ∧
    (∀ b : Block, s.holds b.toList → s.kv[sa] = true →
      GivesOutput (exec (.aesenc sa) s) s (aesEnc s.k[sa] b).toList ∧
      GivesOutput (exec (.aesdec sa) s) s (aesDec s.k[sa] b).toList) ∧
    ∀ i ∈ [Instr.aesenc sa, .aesdec sa],
      (s.ilen ≠ 16 → exec i s = .next { s with err := .badLen }) ∧
      (s.ilen = 16 → s.kv[sa] = false → exec i s = .next { s with err := .keySlot })

/-! ### Key wrapping, chained CBC, attribute blobs (41_key_wrap_cbc.md) -/

/-- `KWRAP` and `KUNWRAP` (words `0x2000 | SA << 4`, `0x2100 | SA << 4`) of 16 or 32 bytes transform each block on its own, with
no chaining; another length raises `E_BADLEN`, checked first, and an invalid slot `E_KEYSLOT` (R164, R165). -/
def Obligations.KeyWrapCommandsTransformEachBlock : Prop :=
  ∀ (sa : Slot) (s : State),
    encode (.kwrap sa) = 0x2000 ||| BitVec.ofNat 16 sa <<< 4 ∧ encode (.kunwrap sa) = 0x2100 ||| BitVec.ofNat 16 sa <<< 4 ∧
    (s.kv[sa] = true → ∀ b c : Block,
      (s.holds b.toList →
        GivesOutput (exec (.kwrap sa) s) s (aesEnc s.k[sa] b).toList ∧
        GivesOutput (exec (.kunwrap sa) s) s (aesDec s.k[sa] b).toList) ∧
      (s.holds (b.toList ++ c.toList) →
        GivesOutput (exec (.kwrap sa) s) s ((aesEnc s.k[sa] b).toList ++ (aesEnc s.k[sa] c).toList) ∧
        GivesOutput (exec (.kunwrap sa) s) s ((aesDec s.k[sa] b).toList ++ (aesDec s.k[sa] c).toList))) ∧
    ∀ i ∈ [Instr.kwrap sa, .kunwrap sa],
      (s.ilen ≠ 16 → s.ilen ≠ 32 → exec i s = .next { s with err := .badLen }) ∧
      (s.ilen = 16 ∨ s.ilen = 32 → s.kv[sa] = false → exec i s = .next { s with err := .keySlot })

/-- `CBCENC` and `CBCDEC` (words `0x2300 | SA << 4`, `0x2400 | SA << 4`) of 1 to 256 blocks complete with the chained blocks of
R162 and R163; another length raises `E_BADLEN`, checked first, and an invalid slot `E_KEYSLOT` (R167, R168). -/
def Obligations.CbcCommandsChainTheBlocks : Prop :=
  ∀ (sa : Slot) (s : State),
    encode (.cbcenc sa) = 0x2300 ||| BitVec.ofNat 16 sa <<< 4 ∧ encode (.cbcdec sa) = 0x2400 ||| BitVec.ofNat 16 sa <<< 4 ∧
    (∀ ds : List Block, 1 ≤ ds.length → ds.length ≤ 256 → s.kv[sa] = true → s.holds (blockBytes ds) →
      GivesOutput (exec (.cbcenc sa) s) s (blockBytes (cbcEncBlocks s.k[sa] (zeros 16) ds)) ∧
      GivesOutput (exec (.cbcdec sa) s) s (blockBytes (cbcDecBlocks s.k[sa] (zeros 16) ds))) ∧
    ∀ i ∈ [Instr.cbcenc sa, .cbcdec sa],
      (s.ilen = 0 ∨ s.ilen.toNat % 16 ≠ 0 ∨ 4096 < s.ilen.toNat → exec i s = .next { s with err := .badLen }) ∧
      (s.ilen ≠ 0 → s.ilen.toNat % 16 = 0 → s.ilen.toNat ≤ 4096 → s.kv[sa] = false →
        exec i s = .next { s with err := .keySlot })

/-- `KUNWRAPK` (word `0x2200 | SA << 4 | SD`) puts the unwrapped key into the destination slot, computed from the source slot as
it was before, and changes no other slot and nothing else; `SA = SD` is included. A length other than 16 raises `E_BADLEN`, checked
first, and an invalid source slot `E_KEYSLOT` (R166). -/
def Obligations.KunwrapkFillsTheDestinationSlot : Prop :=
  ∀ (sa sd : Slot) (s : State),
    encode (.kunwrapk sa sd) = 0x2200 ||| BitVec.ofNat 16 sa <<< 4 ||| BitVec.ofNat 16 sd ∧
    (∀ b : Block, s.holds b.toList → s.kv[sa] = true →
      ∃ t, exec (.kunwrapk sa sd) s = .next t ∧ t = { s with k := t.k, kv := t.kv, err := .ok } ∧
        t.k[sd] = aesDec s.k[sa] b ∧ t.kv[sd] = true ∧ ∀ j : Slot, j ≠ sd → t.k[j] = s.k[j] ∧ t.kv[j] = s.kv[j]) ∧
    (s.ilen ≠ 16 → exec (.kunwrapk sa sd) s = .next { s with err := .badLen }) ∧
    (s.ilen = 16 → s.kv[sa] = false → exec (.kunwrapk sa sd) s = .next { s with err := .keySlot })

/-- Unwrapping inverts wrapping and wrapping unwrapping, for 16 and 32 bytes; CBC decryption inverts CBC encryption for every
whole number of blocks (R163, and R161, which the spec derives from R160 and R134). -/
def Obligations.UnwrapInvertsWrapAndCbc : Prop :=
  (∀ (k : Block) (d : List Byte), d.length = 16 ∨ d.length = 32 →
    kunwrap k (kwrap k d) = d ∧ kwrap k (kunwrap k d) = d) ∧
  ∀ (k : Block) (d : List Byte), d.length % 16 = 0 → cbcDec k (cbcEnc k d) = d

/-- `ATTRENC` (word `0x2800`) of a record of at most 4092 bytes under a node key completes with the CBC encryption of "MEGA", the
record, and the least zero padding to a multiple of 16; a longer record raises `E_BADLEN`, checked first, and a null node
`E_KEYACCESS` (R170). -/
def Obligations.AttrencEncryptsThePackedRecord : Prop :=
  encode .attrenc = 0x2800 ∧
  (∀ (s : State) (p : List Byte), s.nk.state ≠ .null → p.length ≤ 4092 → s.holds p →
    ∃ z, z < 16 ∧ (4 + p.length + z) % 16 = 0 ∧
      GivesOutput (exec .attrenc s) s
        (cbcEnc s.nk.key (([0x4D, 0x45, 0x47, 0x41] : List Byte) ++ p ++ List.replicate z 0))) ∧
  (∀ s : State, 4092 < s.ilen.toNat → exec .attrenc s = .next { s with err := .badLen }) ∧
  ∀ s : State, s.ilen.toNat ≤ 4092 → s.nk.state = .null → exec .attrenc s = .next { s with err := .keyAccess }

/-- `ATTRDEC` recovers the record an attribute blob was packed from, however many zero bytes it was padded with, when the
record does not itself end in a zero byte (R169, R171, R172). -/
def Obligations.AttrdecRecoversThePackedRecord : Prop :=
  ∀ (s : State) (p : List Byte) (z : Nat), s.nk.state ≠ .null → (4 + p.length + z) % 16 = 0 → 4 + p.length + z ≤ 4096 →
    p.getLast? ≠ some 0 →
    s.holds (cbcEnc s.nk.key (([0x4D, 0x45, 0x47, 0x41] : List Byte) ++ p ++ List.replicate z 0)) →
    GivesOutput (exec .attrdec s) { s with attrbad := false } p

/-- `ATTRDEC` on a blob of a wrong length, or whose first block decrypts without the magic, completes with `ATTRBAD` = 1 and
`OLEN` = 0 (R171, R172, R322). -/
def Obligations.AttrdecToleratesABadBlob : Prop :=
  ∀ (s : State) (b : Block), s.nk.state ≠ .null → (∀ j : Fin 16, s.ibuf.read j = b[j]) →
    (s.ilen = 0 ∨ s.ilen.toNat % 16 ≠ 0 ∨ 4096 < s.ilen.toNat ∨
      (aesDec s.nk.key b).toList.take 4 ≠ ([0x4D, 0x45, 0x47, 0x41] : List Byte)) →
    exec .attrdec s = .next { s with attrbad := true, olen := 0, err := .ok }

/-- No execution of `ATTRDEC` changes anything but `OBUF`, `OLEN`, `ATTRBAD` and `STATUS.ERR`; a node with null fields is both
signalled and tolerated, and no other case is an error (R173). -/
def Obligations.AttrdecDisturbsNothingElse : Prop :=
  ∀ s : State, ∃ t, exec .attrdec s = .next t ∧
    t = { s with obuf := t.obuf, olen := t.olen, attrbad := t.attrbad, err := t.err } ∧
    (s.nk.state = .null → t.err = .keyAccess ∧ t.attrbad = true ∧ t.obuf = s.obuf ∧ t.olen = s.olen) ∧
    (s.nk.state ≠ .null → t.err = .ok)

/-! ### Key slots, node keys, password derivation (44_key_hierarchy.md) -/

/-- `KLOAD` (word `0x1000 | SD`) fills a slot from 16 bytes of `IBUF`, and raises `E_BADLEN` for another length; `KCLEAR` (word
`0x1100 | SD`) erases one. Each changes that slot, its valid flag and `STATUS.ERR` only, and `KVALID` shows it (R271, R272). -/
def Obligations.SlotsAreLoadedAndCleared : Prop :=
  ∀ (sd : Slot) (s : State),
    encode (.kload sd) = 0x1000 ||| BitVec.ofNat 16 sd ∧ encode (.kclear sd) = 0x1100 ||| BitVec.ofNat 16 sd ∧
    (∀ b : Block, s.holds b.toList →
      ∃ t, exec (.kload sd) s = .next t ∧ t = { s with k := t.k, kv := t.kv, err := .ok } ∧ t.k[sd] = b ∧
        t.kvalid.getLsbD sd = true ∧ ∀ j : Slot, j ≠ sd → t.k[j] = s.k[j] ∧ t.kvalid.getLsbD j = s.kvalid.getLsbD j) ∧
    (s.ilen ≠ 16 → exec (.kload sd) s = .next { s with err := .badLen }) ∧
    ∃ t, exec (.kclear sd) s = .next t ∧ t = { s with k := t.k, kv := t.kv, err := .ok } ∧ t.k[sd] = zeros 16 ∧
      t.kvalid.getLsbD sd = false ∧ ∀ j : Slot, j ≠ sd → t.k[j] = s.k[j] ∧ t.kvalid.getLsbD j = s.kvalid.getLsbD j

/-- `PWKDF` (word `0x3800 | SD`) of 1 to 4096 password bytes puts into the slot the result of `KDF_ROUNDS` rounds from `KDF_SEED`, each of which
encrypts the running block under every 16-byte chunk of the zero-padded password in turn (R290, R291), for whatever values the
open parameters have (log 4); other lengths raise `E_BADLEN`. -/
def Obligations.PwkdfDerivesTheSlotKey : Prop :=
  ∀ (sd : Slot) (s : State),
    encode (.pwkdf sd) = 0x3800 ||| BitVec.ofNat 16 sd ∧
    (∀ (pw : List Byte) (z : Nat) (chunks : List Block), 1 ≤ pw.length → pw.length ≤ 4096 → z < 16 →
      blockBytes chunks = pw ++ List.replicate z 0 → s.holds pw →
      ∃ t, exec (.pwkdf sd) s = .next t ∧ t = { s with k := t.k, kv := t.kv, err := .ok } ∧
        t.k[sd] = (fun st => chunks.foldl (fun st q => aesEnc q st) st)^[params.kdfRounds] params.kdfSeed ∧
        t.kv[sd] = true ∧ ∀ j : Slot, j ≠ sd → t.k[j] = s.k[j] ∧ t.kv[j] = s.kv[j]) ∧
    (s.ilen = 0 ∨ 4096 < s.ilen.toNat → exec (.pwkdf sd) s = .next { s with err := .badLen })

/-- `split` and `merge` follow the formulas of R281 and R282 (the second is the spec's own inference from the first) and are
inverse to each other. -/
def Obligations.SplitAndMergeAreInverse : Prop :=
  (∀ raw : Bytes 32,
    (∀ i : Fin 16, (splitKey raw).1[i] = raw[i.val]'(by omega) ^^^ raw[i.val + 16]'(by omega)) ∧
    (∀ i : Fin 8, (splitKey raw).2.1[i] = raw[i.val + 16]'(by omega) ∧
      (splitKey raw).2.2[i] = raw[i.val + 24]'(by omega)) ∧
    mergeKey (splitKey raw).1 (splitKey raw).2.1 (splitKey raw).2.2 = raw) ∧
  ∀ (key : Block) (iv mac : Bytes 8),
    splitKey (mergeKey key iv mac) = (key, iv, mac) ∧
    (∀ i : Fin 8, (mergeKey key iv mac)[i.val + 16]'(by omega) = iv[i] ∧
      (mergeKey key iv mac)[i.val + 24]'(by omega) = mac[i]) ∧
    ∀ i : Fin 16, (mergeKey key iv mac)[i.val]'(by omega) = key[i] ^^^ (mergeKey key iv mac)[i.val + 16]'(by omega)

/-- `NSPLIT` (word `0x3000`) of 32 bytes makes a file node with the fields of R281, of 16 bytes a folder node; nothing but `NK` and
`STATUS.ERR` changes; any other length raises `E_BADLEN` (R283). -/
def Obligations.NsplitSetsTheNodeKey : Prop :=
  encode .nsplit = 0x3000 ∧ ∀ s : State,
    (∀ raw : Bytes 32, s.holds raw.toList →
      ∃ n : NodeKey, exec .nsplit s = .next { s with nk := n, err := .ok } ∧ n.state = .file ∧
        (∀ i : Fin 16, n.key[i] = raw[i.val]'(by omega) ^^^ raw[i.val + 16]'(by omega)) ∧
        ∀ i : Fin 8, n.iv[i] = raw[i.val + 16]'(by omega) ∧ n.mac[i] = raw[i.val + 24]'(by omega)) ∧
    (∀ raw : Block, s.holds raw.toList →
      exec .nsplit s =
        .next { s with nk := { state := .folder, key := raw, iv := zeros 8, mac := zeros 8 }, err := .ok }) ∧
    (s.ilen ≠ 16 → s.ilen ≠ 32 → exec .nsplit s = .next { s with err := .badLen })

/-- `NUNWRAP` (word `0x3100 | SA << 4`) under a valid slot sets `NK` from the two (file) or the one (folder) block it decrypts, one by one; under an
invalid slot it leaves `NK` null and raises `E_KEYSLOT`; any other length raises `E_BADLEN`, checked first (R284). -/
def Obligations.NunwrapUnwrapsAndSplits : Prop :=
  ∀ (sa : Slot) (s : State),
    encode (.nunwrap sa) = 0x3100 ||| BitVec.ofNat 16 sa <<< 4 ∧
    (s.ilen ≠ 16 → s.ilen ≠ 32 → exec (.nunwrap sa) s = .next { s with err := .badLen }) ∧
    (s.kv[sa] = true → ∀ b d : Block,
      (s.holds (b.toList ++ d.toList) →
        ∃ n : NodeKey, exec (.nunwrap sa) s = .next { s with nk := n, err := .ok } ∧ n.state = .file ∧
          (∀ i : Fin 16, n.key[i] = (aesDec s.k[sa] b)[i] ^^^ (aesDec s.k[sa] d)[i]) ∧
          ∀ i : Fin 8, n.iv[i] = (aesDec s.k[sa] d)[i.val]'(by omega) ∧ n.mac[i] = (aesDec s.k[sa] d)[i.val + 8]'(by omega)) ∧
      (s.holds b.toList →
        exec (.nunwrap sa) s =
          .next { s with nk := { state := .folder, key := aesDec s.k[sa] b, iv := zeros 8, mac := zeros 8 }, err := .ok })) ∧
    (s.kv[sa] = false → s.ilen = 16 ∨ s.ilen = 32 →
      exec (.nunwrap sa) s =
        .next { s with nk := { state := .null, key := zeros 16, iv := zeros 8, mac := zeros 8 }, err := .keySlot })

/-- `NMERGE` (word `0x3200`) of `key ‖ iv ‖ mac` completes with the 32 bytes of R282: the key xored with `iv ‖ mac`, then `iv`, then `mac`; any
other length raises `E_BADLEN` (R285). -/
def Obligations.NmergeBuildsTheFileKey : Prop :=
  encode .nmerge = 0x3200 ∧ ∀ s : State,
    (∀ (key : Block) (iv mac : Bytes 8), s.holds (key.toList ++ iv.toList ++ mac.toList) →
      GivesOutput (exec .nmerge s) s
        (List.zipWith (· ^^^ ·) key.toList (iv.toList ++ mac.toList) ++ iv.toList ++ mac.toList)) ∧
    (s.ilen ≠ 32 → exec .nmerge s = .next { s with err := .badLen })

/-- `NREAD` (word `0x3300`) completes with the fields of a file node, or the key of a folder node, and raises `E_KEYACCESS` on a null node;
`NCLEAR` (word `0x3400`) leaves `NK` null (R286, R287). -/
def Obligations.NodeIsReadAndCleared : Prop :=
  encode .nread = 0x3300 ∧ encode .nclear = 0x3400 ∧ ∀ s : State,
    (s.nk.state = .file → GivesOutput (exec .nread s) s (s.nk.key.toList ++ s.nk.iv.toList ++ s.nk.mac.toList)) ∧
    (s.nk.state = .folder → GivesOutput (exec .nread s) s s.nk.key.toList) ∧
    (s.nk.state = .null → exec .nread s = .next { s with err := .keyAccess }) ∧
    exec .nclear s =
      .next { s with nk := { state := .null, key := zeros 16, iv := zeros 8, mac := zeros 8 }, err := .ok }

/-- Feeding what `NREAD` returns for a file node to `NMERGE`, and the result to `NSPLIT`, restores the same `NK`, whatever
else the states in between hold (R286). -/
def Obligations.ReadMergeSplitRestoresTheNode : Prop :=
  ∀ s u v : State, s.nk.state = .file → ∀ s1, exec .nread s = .next s1 → u.holds (s1.obuf.readRange 0 s1.olen.toNat) →
    ∀ u1, exec .nmerge u = .next u1 → v.holds (u1.obuf.readRange 0 u1.olen.toNat) →
      ∃ v1, exec .nsplit v = .next v1 ∧ v1.err = .ok ∧ v1.nk = s.nk

/-! ### The stream (42_ctr_stream.md) -/

/-- The keystream block for a counter value below `2^64` is the encryption of the nonce block that holds the IV in bytes 0 to 7
and the counter, most significant byte first, in bytes 8 to 15 (R63, R194). -/
def Obligations.NonceIsIvThenBigEndianCounter : Prop :=
  ∀ (key : Block) (iv : Bytes 8) (n : Nat), n < 2 ^ 64 →
    ∃ nonce : Block, keystream key iv n = aesEnc key nonce ∧
      ∀ i : Fin 8, nonce[i.val]'(by omega) = iv[i] ∧ (nonce[i.val + 8]'(by omega)).toNat = n / 256 ^ (7 - i.val) % 256

/-- The chunk MAC starts as the IV twice (R234), takes a block of at most 16 plaintext bytes by xor into its first bytes only
(R235), is folded by one encryption of the file MAC xored with it (R236), and the MetaMac is the xor of the file MAC's words in
pairs (R238). -/
def Obligations.MacFunctionsFollowTheirFormulas : Prop :=
  (∀ (v : Bytes 8) (i : Fin 8), (macReset v)[i.val]'(by omega) = v[i] ∧ (macReset v)[i.val + 8]'(by omega) = v[i]) ∧
  (∀ (acc : Block) (x : List Byte) (i : Fin 16),
    (i.val < x.length → (macAcc acc x)[i] = acc[i] ^^^ x.getD i 0) ∧ (x.length ≤ i.val → (macAcc acc x)[i] = acc[i])) ∧
  (∀ k f acc d : Block, (∀ i : Fin 16, d[i] = f[i] ^^^ acc[i]) → macFold k f acc = aesEnc k d) ∧
  ∀ (f : Block) (i : Fin 4),
    (metamac f)[i.val]'(by omega) = f[i.val]'(by omega) ^^^ f[i.val + 4]'(by omega) ∧
    (metamac f)[i.val + 4]'(by omega) = f[i.val + 8]'(by omega) ^^^ f[i.val + 12]'(by omega)

/-- `SOPENE` (word `0x4000`) on a closed stream with a length of 1 to `2^63 - 1` opens a fresh encrypting stream whose key is bytes
0 to 15 and whose IV is bytes 16 to 23 of the draw, whatever the draw is; it empties the queues, clears `INTEG` and changes nothing
else but the entropy input (log 2). A stream that is not closed raises `E_STATE`, checked first, and a length out of range
`E_BADLEN`; neither draws nor changes anything but `STATUS.ERR` (R192). -/
def Obligations.SopeneOpensAFreshStream : Prop :=
  encode .sopene = 0x4000 ∧ ∀ s : State,
    (s.stream.state = .closed → 1 ≤ s.arg0.toNat → s.arg0.toNat < 2 ^ 63 →
      ∃ t, exec .sopene s = .next t ∧
        t = { s with stream := t.stream, sin := [], sout := [], integ := false, err := .ok, entropy := t.entropy,
                     draws := t.draws } ∧
        t.stream = { state := .active, mode := .enc, key := t.stream.key, iv := t.stream.iv, expmac := zeros 8,
                     len := s.arg0, pos := 0, ctr := 0, chunkmac := zeros 16, filemac := zeros 16, metamac := zeros 8 } ∧
        (∀ i : Fin 16, t.stream.key[i] = s.drawBytes[i.val]'(by omega)) ∧
        (∀ i : Fin 8, t.stream.iv[i] = s.drawBytes[i.val + 16]'(by omega)) ∧
        ∀ (r : Bytes 24) (rest : List (Bytes 24)), s.entropy = r :: rest → s.drawBytes = r ∧ t.entropy = rest) ∧
    (s.stream.state ≠ .closed → exec .sopene s = .next { s with err := .state }) ∧
    (s.stream.state = .closed → s.arg0 = 0 ∨ 2 ^ 63 - 1 < s.arg0.toNat → exec .sopene s = .next { s with err := .badLen })

/-- `SOPEND` (word `0x4100`) on a closed stream with an accepted length and a file node opens a fresh decrypting stream with the
node's key, IV and MAC. Its errors, in order: `E_STATE` for a stream that is not closed, `E_BADLEN` for a length out of range,
`E_KEYACCESS` for a node that is no file node; each changes only `STATUS.ERR` (R193). -/
def Obligations.SopendOpensTheNodesStream : Prop :=
  encode .sopend = 0x4100 ∧ ∀ s : State,
    (s.stream.state = .closed → 1 ≤ s.arg0.toNat → s.arg0.toNat < 2 ^ 63 → s.nk.state = .file →
      exec .sopend s = .next { s with stream := { state := .active, mode := .dec, key := s.nk.key, iv := s.nk.iv,
                                                  expmac := s.nk.mac, len := s.arg0, pos := 0, ctr := 0,
                                                  chunkmac := zeros 16, filemac := zeros 16, metamac := zeros 8 },
                                      sin := [], sout := [], integ := false, err := .ok }) ∧
    (s.stream.state ≠ .closed → exec .sopend s = .next { s with err := .state }) ∧
    (s.stream.state = .closed → s.arg0 = 0 ∨ 2 ^ 63 - 1 < s.arg0.toNat →
      exec .sopend s = .next { s with err := .badLen }) ∧
    (s.stream.state = .closed → 1 ≤ s.arg0.toNat → s.arg0.toNat < 2 ^ 63 → s.nk.state ≠ .file →
      exec .sopend s = .next { s with err := .keyAccess })

/-- A read that is allowed moves exactly the `n` bytes of R196 from `SIN` to `SOUT`, each xored with the keystream byte of
its stream offset (R194, R195, R198); it writes `RES`, advances the position and the counter, is done exactly at the end of the
stream, and raises `E_INTEGRITY` exactly when a decrypting stream ends with a tag other than the expected one (R197, R201, R202). That the
byte at offset `p` uses counter value `p / 16` rests on `CTR_FIRST` = 0 (R195), the instance's value (log 5). -/
def Obligations.SreadTransformsTheBytes : Prop :=
  ∀ (s : State) (n : Nat), s.Inv → s.stream.state = .active →
    ((s.stream.len.toNat ≤ s.stream.pos.toNat + s.arg0.toNat ∧ n = s.stream.len.toNat - s.stream.pos.toNat) ∨
     (s.stream.pos.toNat + s.arg0.toNat < s.stream.len.toNat ∧ 16 ≤ s.arg0.toNat ∧
      n = s.arg0.toNat - s.arg0.toNat % 16)) →
    n ≤ s.sin.length →
    ∃ (t : State) (o : List Byte), exec .sread s = .next t ∧
      t = { s with sin := t.sin, sout := t.sout, res := t.res, stream := t.stream, integ := t.integ, err := t.err } ∧
      t.stream = { s.stream with state := t.stream.state, pos := t.stream.pos, ctr := t.stream.ctr,
                                 chunkmac := t.stream.chunkmac, filemac := t.stream.filemac, metamac := t.stream.metamac } ∧
      t.sin = s.sin.drop n ∧ t.sout = s.sout ++ o ∧ o.length = n ∧ t.res.toNat = n ∧
      (∀ j : Nat, j < n → o.getD j 0 = s.sin.getD j 0 ^^^
        (keystream s.stream.key s.stream.iv ((s.stream.pos.toNat + j) / 16))[(s.stream.pos.toNat + j) % 16]'(by omega)) ∧
      t.stream.pos.toNat = s.stream.pos.toNat + n ∧ t.stream.ctr.toNat = (s.stream.pos.toNat + n + 15) / 16 ∧
      t.stream.state = (if s.stream.pos.toNat + n = s.stream.len.toNat then .done else .active) ∧
      t.integ = (decide (t.stream.state = .done) && decide (s.stream.mode = .dec) &&
        decide (t.stream.metamac ≠ s.stream.expmac)) ∧
      t.err = (if t.integ then .integrity else .ok)

/-- What a read that does not move bytes does: `E_STATE` when closed; 0 and no error when done, with neither `ARG0` nor `SIN`
looked at (R203); `E_READSIZE` before `E_UNDERRUN` when active (R196, R211); nothing is popped and `S` is untouched. -/
def Obligations.SreadOtherwiseLeavesTheStream : Prop :=
  ∀ s : State,
    (s.stream.state = .closed → exec .sread s = .next { s with err := .state }) ∧
    (s.stream.state = .done → exec .sread s = .next { s with res := 0, err := .ok }) ∧
    (s.stream.state = .active → s.stream.pos.toNat + s.arg0.toNat < s.stream.len.toNat →
      (s.arg0.toNat < 16 → exec .sread s = .next { s with err := .readSize }) ∧
      (16 ≤ s.arg0.toNat → s.sin.length < s.arg0.toNat - s.arg0.toNat % 16 →
        exec .sread s = .next { s with err := .underrun })) ∧
    (s.stream.state = .active → s.stream.len.toNat ≤ s.stream.pos.toNat + s.arg0.toNat →
      s.sin.length < s.stream.len.toNat - s.stream.pos.toNat → exec .sread s = .next { s with err := .underrun })

/-- Underrun (R211): a read that the input is too short for raises `E_UNDERRUN` and changes nothing else, and once enough has been
pushed the same read succeeds and takes exactly its bytes; a count that is too small is `E_READSIZE` whatever `SIN` holds; a
finished stream consumes no surplus. -/
def Obligations.UnderrunChangesNothingAndIsRetried : Prop :=
  ∀ (s : State) (n : Nat),
    (s.stream.state = .active →
      ((s.stream.len.toNat ≤ s.stream.pos.toNat + s.arg0.toNat ∧ n = s.stream.len.toNat - s.stream.pos.toNat) ∨
       (s.stream.pos.toNat + s.arg0.toNat < s.stream.len.toNat ∧ 16 ≤ s.arg0.toNat ∧
        n = s.arg0.toNat - s.arg0.toNat % 16)) →
      s.sin.length < n →
      exec .sread s = .next { s with err := .underrun } ∧
      ∀ v : List Byte, n ≤ (s.sin ++ v).length →
        ∃ t t', performMove (.pushSIN v) { s with err := .underrun } = .next t ∧ exec .sread t = .next t' ∧
          (t'.err = .ok ∨ t'.err = .integrity) ∧ t'.res.toNat = n ∧ t'.sin = (s.sin ++ v).drop n) ∧
    (s.stream.state = .active → s.stream.pos.toNat + s.arg0.toNat < s.stream.len.toNat → s.arg0.toNat < 16 →
      exec .sread s = .next { s with err := .readSize }) ∧
    (s.stream.state = .done → ∃ t, exec .sread s = .next t ∧ t.sin = s.sin)

/-- The integrity error is raised by the `SREAD` that takes a decrypting stream from active to done with a wrong tag, and by
nothing else (R202, and R320, which the spec derives from R197, R201 and R202). -/
def Obligations.IntegrityIsRaisedOnlyAtTheEnd : Prop :=
  ∀ (i : Instr) (s t : State), exec i s = .next t →
    (t.err = .integrity ↔ i = .sread ∧ s.stream.state = .active ∧ t.stream.state = .done ∧ s.stream.mode = .dec ∧
      t.stream.metamac ≠ s.stream.expmac)

/-- The life cycle of R191: the state of the stream changes from closed to active by a successful open, from active to done by
the read that reaches the end, to closed by `SCLOSE` or `RESET`, and in no other way. -/
def Obligations.StreamLifeCycle : Prop :=
  ∀ (i : Instr) (s t : State), exec i s = .next t →
    (t.stream.state ≠ s.stream.state →
      ((i = .sopene ∨ i = .sopend) ∧ s.stream.state = .closed ∧ t.stream.state = .active ∧ t.err = .ok) ∨
      (i = .sread ∧ s.stream.state = .active ∧ t.stream.state = .done ∧ t.stream.pos = t.stream.len) ∨
      ((i = .sclose ∨ i = .reset) ∧ t.stream.state = .closed)) ∧
    (i = .sopene ∨ i = .sopend → t.err = .ok → t.stream.state = .active) ∧
    (i = .sclose ∨ i = .reset → t.stream.state = .closed)

/-- Buffer-size independence (R204): two reads in a row, the first not reaching the end, leave the same bytes, the same stream
(MACs, counter and position), the same verdict and the same input left as one read of as many bytes as the two together. The spec derives R204 from R196 to
R198. -/
def Obligations.TwoReadsEqualOneRead : Prop :=
  ∀ (s t1 t2 : State) (a b c : BitVec 64), s.stream.state = .active →
    exec .sread { s with arg0 := a } = .next t1 → t1.err = .ok → t1.stream.state = .active →
    exec .sread { t1 with arg0 := b } = .next t2 → (t2.err = .ok ∨ t2.err = .integrity) →
    c.toNat = t1.res.toNat + t2.res.toNat →
    ∃ u, exec .sread { s with arg0 := c } = .next u ∧ u.sout = t2.sout ∧ u.sin = t2.sin ∧ u.stream = t2.stream ∧
      u.integ = t2.integ ∧ u.err = t2.err

/-- Buffer-size independence for any sequence of counts (R204, which the spec derives from R196 to R198): reads of whatever counts,
none of which fails, leave the same bytes, the same stream, the same input left and the same verdict as one read of as many bytes as
they advanced together. -/
def Obligations.ReadSizesDoNotMatter : Prop :=
  ∀ (s t : State) (counts : List (BitVec 64)), s.Inv → s.stream.state = .active → counts ≠ [] →
    readSequence counts s = some t →
    ∃ u, exec .sread { s with arg0 := BitVec.ofNat 64 (t.stream.pos.toNat - s.stream.pos.toNat) } = .next u ∧
      u.sout = t.sout ∧ u.sin = t.sin ∧ u.stream = t.stream ∧ u.integ = t.integ

/-- Round trip (R205): what an encrypting stream makes of `P`, a decrypting stream opened with its key, IV, MetaMac and length
turns back into `P`, with the same MetaMac and no integrity error, whatever the draw was. The spec derives R205 from R194, R198
and R199. -/
def Obligations.DecryptingWhatWasEncryptedRestoresIt : Prop :=
  ∀ (s : State) (P : List Byte) (a : BitVec 64), s.stream.state = .closed → s.arg0.toNat = P.length →
    1 ≤ P.length → P.length < 2 ^ 63 → P.length ≤ a.toNat →
    ∃ s1 s2, exec .sopene s = .next s1 ∧ exec .sread { s1 with sin := P, arg0 := a } = .next s2 ∧ s2.err = .ok ∧
      s2.stream.state = .done ∧ s2.sout.length = P.length ∧
      ∀ u : State, u.stream.state = .closed → u.arg0 = s.arg0 →
        u.nk = { state := .file, key := s2.stream.key, iv := s2.stream.iv, mac := s2.stream.metamac } →
        ∃ u1 u2, exec .sopend u = .next u1 ∧ exec .sread { u1 with sin := s2.sout, arg0 := a } = .next u2 ∧
          u2.sout = P ∧ u2.err = .ok ∧ u2.integ = false ∧ u2.stream.metamac = s2.stream.metamac

/-- The MetaMac a whole read of a freshly opened stream ends with is the one function of key, IV and plaintext that R240
defines chunk by chunk, in both modes: the plaintext is the input of an encrypting stream and the output of a decrypting one.
The spec derives R240 from R197, R198, R201 and R234 to R239. -/
def Obligations.MetaMacIsTheMacOfThePlaintext : Prop :=
  ∀ (s : State) (mode : StreamMode) (key : Block) (iv expmac : Bytes 8) (L : BitVec 64),
    s.stream = { state := .active, mode := mode, key := key, iv := iv, expmac := expmac, len := L, pos := 0,
                 ctr := 0, chunkmac := zeros 16, filemac := zeros 16, metamac := zeros 8 } →
    1 ≤ L.toNat → L.toNat < 2 ^ 63 → s.sin.length = L.toNat → L.toNat ≤ s.arg0.toNat → s.sout = [] →
    ∃ t, exec .sread s = .next t ∧ t.stream.state = .done ∧
      t.stream.metamac = streamMac params key iv (match mode with | .enc => s.sin | .dec => t.sout)

/-- `SGETKEY` (word `0x4300`) returns the key and IV of an open encrypting stream, `SGETMAC` (word `0x4400`) the MetaMac of a
finished stream, and each raises the error R206 and R207 give it otherwise; the tag of a finished decrypting stream is the expected
one exactly when `INTEG` = 0. -/
def Obligations.StreamResultsAreReadOut : Prop :=
  encode .sgetkey = 0x4300 ∧ encode .sgetmac = 0x4400 ∧ ∀ s : State,
    (s.Inv → s.stream.state = .done → s.stream.mode = .dec → (s.stream.metamac = s.stream.expmac ↔ s.integ = false)) ∧
    (s.stream.state ≠ .closed → s.stream.mode = .enc →
      GivesOutput (exec .sgetkey s) s (s.stream.key.toList ++ s.stream.iv.toList)) ∧
    (s.stream.state = .closed ∨ s.stream.mode = .dec → exec .sgetkey s = .next { s with err := .state }) ∧
    (s.stream.state = .done → GivesOutput (exec .sgetmac s) s s.stream.metamac.toList) ∧
    (s.stream.state = .closed → exec .sgetmac s = .next { s with err := .state }) ∧
    (s.stream.state = .active → exec .sgetmac s = .next { s with err := .notReady })

/-- `SCLOSE` (word `0x4500`) completes in every state with every field of `S` at its reset value, both queues empty and `INTEG`
cleared, and changes nothing else (R208). -/
def Obligations.SclosesDiscardTheStream : Prop :=
  encode .sclose = 0x4500 ∧ ∀ s : State,
    exec .sclose s = .next { s with stream := { state := .closed, mode := .enc, key := zeros 16, iv := zeros 8,
                                                expmac := zeros 8, len := 0, pos := 0, ctr := 0,
                                                chunkmac := zeros 16, filemac := zeros 16, metamac := zeros 8 },
                                    sin := [], sout := [], integ := false, err := .ok }

/-- `SSEEK` (word `0x4600`) and `SWRITE` (word `0x4700`) always fail with `E_UNSUPPORTED` and change nothing else (R209,
R210). -/
def Obligations.SeekAndWriteAlwaysFail : Prop :=
  encode .sseek = 0x4600 ∧ encode .swrite = 0x4700 ∧
  ∀ s : State, exec .sseek s = .next { s with err := .unsupported } ∧
    exec .swrite s = .next { s with err := .unsupported }

/-! ### Boundaries and packing (43_chunk_mac.md) -/

/-- The closed form of R231 tests membership in the boundary sequence of R230, as the spec derives it. -/
def Obligations.BoundaryTestMatchesTheSequence : Prop :=
  ∀ L p : Nat, 1 ≤ L → (isBoundary L p = true ↔ p ∈ boundaries L)

/-- The boundary sequence starts at 0, rises strictly, stays below `L`, holds multiples of 131072 only, and has at most
`8 + ceil(L / 1048576)` members (R232, which the spec derives from R230 and R231). -/
def Obligations.BoundariesRiseBelowTheLength : Prop :=
  ∀ L : Nat, 1 ≤ L →
    (boundaries L).head? = some 0 ∧ (boundaries L).Pairwise (· < ·) ∧ (∀ p ∈ boundaries L, p < L ∧ p % 131072 = 0) ∧
    (boundaries L).length ≤ 8 + (L + 1048575) / 1048576

/-- `BNDNEXT` (word `0x5000`) on an accepted length returns the least boundary above `ARG1` with `NONE` = 0, or the length with
`NONE` = 1 when there is none; on any other length it raises `E_BADLEN` and changes nothing else (R243). -/
def Obligations.BndnextGivesTheLeastBoundaryAbove : Prop :=
  encode .bndnext = 0x5000 ∧ ∀ s : State,
    (1 ≤ s.arg0.toNat → s.arg0.toNat ≤ 2 ^ 63 - 1 →
      ∃ t, exec .bndnext s = .next t ∧ t = { s with res := t.res, noBoundary := t.noBoundary, err := .ok } ∧
        ((t.noBoundary = false ∧ s.arg1.toNat < t.res.toNat ∧ isBoundary s.arg0.toNat t.res.toNat = true ∧
            ∀ p, s.arg1.toNat < p → isBoundary s.arg0.toNat p = true → t.res.toNat ≤ p) ∨
          (t.noBoundary = true ∧ t.res = s.arg0 ∧ ∀ p, s.arg1.toNat < p → isBoundary s.arg0.toNat p = false))) ∧
    (s.arg0 = 0 ∨ 2 ^ 63 - 1 < s.arg0.toNat → exec .bndnext s = .next { s with err := .badLen })

/-- `PACKNEXT` (word `0x5100`) at a boundary, with an accepted length and pack size, returns the length of the least run of whole
chunks from there that reaches the pack size, or of all the chunks left when none does or the pack size is the sentinel; it
changes `RES` and `STATUS.ERR` only; otherwise it raises `E_BADLEN` and changes nothing else (R241, R244, R245). -/
def Obligations.PacknextGivesTheLeastFullFragment : Prop :=
  encode .packnext = 0x5100 ∧
  (∀ s : State, (s.arg0 = 0 ∨ 2 ^ 63 - 1 < s.arg0.toNat ∨ (2 ^ 63 ≤ s.packsz.toNat ∧ s.packsz.toNat ≠ 2 ^ 64 - 1) ∨
      isBoundary s.arg0.toNat s.arg1.toNat = false) → exec .packnext s = .next { s with err := .badLen }) ∧
  ∀ s : State, 1 ≤ s.arg0.toNat → s.arg0.toNat ≤ 2 ^ 63 - 1 →
    (s.packsz.toNat ≤ 2 ^ 63 - 1 ∨ s.packsz.toNat = 2 ^ 64 - 1) → isBoundary s.arg0.toNat s.arg1.toNat = true →
    ∃ (t : State) (e : Nat), exec .packnext s = .next t ∧ t = { s with res := t.res, err := .ok } ∧
      e = s.arg1.toNat + t.res.toNat ∧ s.arg1.toNat < e ∧ e ≤ s.arg0.toNat ∧
      (e = s.arg0.toNat ∨ isBoundary s.arg0.toNat e = true) ∧
      (e < s.arg0.toNat → s.packsz.toNat ≠ 2 ^ 64 - 1 ∧ s.packsz.toNat ≤ t.res.toNat) ∧
      ∀ p, s.arg1.toNat < p → p < e → isBoundary s.arg0.toNat p = true →
        s.packsz.toNat = 2 ^ 64 - 1 ∨ p - s.arg1.toNat < s.packsz.toNat

/-- The fragment sequence from 0 covers the stream exactly: the lengths sum to `L`, none is zero, and every fragment ends at a
boundary of `L` or at `L` (R242, which the spec derives from R231 and R241). -/
def Obligations.FragmentsCoverTheStream : Prop :=
  ∀ L P : Nat, 1 ≤ L →
    (fragments L P L 0).sum = L ∧ (∀ n ∈ fragments L P L 0, 1 ≤ n) ∧
    ∀ j, j ≤ (fragments L P L 0).length →
      ((fragments L P L 0).take j).sum = L ∨ isBoundary L ((fragments L P L 0).take j).sum = true

/-! ### Host moves and registers (10_state.md) -/

/-- `STATUS` has the fields of R35 at their places and reads 0 everywhere else; `KVALID` bit `j` reads `KV[j]` (R34). The
codes of R35 and R311 are written out. -/
def Obligations.StatusAndKvalidShowTheirFields : Prop :=
  ∀ s : State,
    s.status.extractLsb' 0 8 = s.err.code ∧ s.status.extractLsb' 8 2 = s.stream.state.code ∧
    (s.stream.state ≠ .closed → s.status.extractLsb' 10 1 = s.stream.mode.code) ∧
    (s.stream.state = .closed → s.status.extractLsb' 10 1 = 0) ∧ s.status.getLsbD 11 = false ∧
    s.status.extractLsb' 12 2 = s.nk.state.code ∧ s.status.extractLsb' 14 2 = 0 ∧ s.status.getLsbD 16 = s.integ ∧
    s.status.getLsbD 17 = s.attrbad ∧ s.status.getLsbD 18 = s.noBoundary ∧ s.status.extractLsb' 19 13 = 0 ∧
    (∀ j : Slot, s.kvalid.getLsbD j = s.kv[j]) ∧
    [ErrCode.ok, .illegal, .unsupported, .readSize, .badLen, .state, .notReady, .keySlot, .keyAccess, .integrity,
      .underrun].map ErrCode.code = [0, 1, 2, 3, 4, 5, 6, 7, 8, 9, 10] ∧
    [StreamState.closed, .active, .done].map StreamState.code = [0, 1, 2] ∧
    [StreamMode.enc, .dec].map StreamMode.code = [0, 1] ∧
    [NodeState.null, .folder, .file].map NodeState.code = [0, 1, 2]

/-- `ReadReg` of each of the registers 1 to 10 returns that register as a number and changes nothing of CORE's state (R34, R43,
R69). -/
def Obligations.ReadRegReturnsTheRegister : Prop :=
  ∀ s : State, ∀ e ∈ [(1, s.status.toNat), (2, s.arg0.toNat), (3, s.arg1.toNat), (4, s.res.toNat), (5, s.ilen.toNat),
      (6, s.olen.toNat), (7, s.stream.pos.toNat), (8, s.stream.len.toNat), (9, s.kvalid.toNat), (10, s.packsz.toNat)],
    performMove (.readReg e.1) s = .next { s with replies := s.replies ++ [.number e.2] }

/-- `WriteReg` of a value that fits sets the register it names and nothing else, and the next `ReadReg` of it returns that
value and changes nothing of CORE's state (R34, R43, R69, R72). -/
def Obligations.WrittenRegistersReadBack : Prop :=
  ∀ (s : State) (n v : Nat) (rest : List HostMove), s.moves = .writeReg n v :: .readReg n :: rest →
    (n = 2 ∨ n = 3 ∨ n = 10) ∧ v < 2 ^ 64 ∨ n = 5 ∧ v < 2 ^ 16 →
    ∃ t u, step s = .next t ∧
      t = { s with moves := .readReg n :: rest, arg0 := if n = 2 then BitVec.ofNat 64 v else s.arg0,
                   arg1 := if n = 3 then BitVec.ofNat 64 v else s.arg1,
                   ilen := if n = 5 then BitVec.ofNat 16 v else s.ilen,
                   packsz := if n = 10 then BitVec.ofNat 64 v else s.packsz } ∧
      step t = .next u ∧ u = { t with moves := rest, replies := s.replies ++ [.number v] }

/-- `WriteIBUF` within the buffer changes exactly the bytes it writes; `ReadOBUF` up to `OLEN` returns the bytes of `OBUF`; a
push appends to `SIN`; a pop of no more than `SOUT` holds returns its first bytes and leaves the rest. Nothing else of CORE's
state changes (R33, R43, R69). -/
def Obligations.BufferAndQueueMovesDoTheirEffect : Prop :=
  ∀ (s : State) (off n : Nat) (v w : List Byte),
    (off + v.length ≤ 4096 → ∃ t, performMove (.writeIBUF off v) s = .next t ∧ t = { s with ibuf := t.ibuf } ∧
      (∀ j, j < v.length → t.ibuf.read (off + j) = v.getD j 0) ∧
      ∀ a, a < off ∨ off + v.length ≤ a → t.ibuf.read a = s.ibuf.read a) ∧
    (off + n ≤ s.olen.toNat → ∃ bs : List Byte, performMove (.readOBUF off n) s =
        .next { s with replies := s.replies ++ [.bytes bs] } ∧ bs.length = n ∧
      ∀ j, j < n → bs.getD j 0 = s.obuf.read (off + j)) ∧
    performMove (.pushSIN v) s = .next { s with sin := s.sin ++ v } ∧
    (s.sout = v ++ w →
      performMove (.popSOUT v.length) s = .next { s with sout := w, replies := s.replies ++ [.bytes v] })

/-- Each move outside R43's "allowed when" column is refused under the name of the condition that fails (R44, R96). -/
def Obligations.DisallowedMovesAreRefusedByName : Prop :=
  ∀ (s : State) (n v off : Nat) (bs : List Byte),
    (n ∈ [1, 4, 6, 7, 8, 9] → performMove (.writeReg n v) s = .refused .registerReadOnly) ∧
    (11 ≤ n → performMove (.writeReg n v) s = .refused .noSuchRegister ∧
      performMove (.readReg n) s = .refused .noSuchRegister) ∧
    performMove (.readReg 0) s = .refused .registerWriteOnly ∧
    (n ∈ [0, 5] ∧ 2 ^ 16 ≤ v ∨ n ∈ [2, 3, 10] ∧ 2 ^ 64 ≤ v → performMove (.writeReg n v) s = .refused .valueTooWide) ∧
    (4096 < off + bs.length → performMove (.writeIBUF off bs) s = .refused .ibufOutOfRange) ∧
    (s.olen.toNat < off + n → performMove (.readOBUF off n) s = .refused .obufOutOfRange) ∧
    (s.sout.length < n → performMove (.popSOUT n) s = .refused .soutTooShort)

/-- What a read move returns depends only on registers 1 to 10, `OBUF[0..OLEN)` and `SOUT`: two states that agree on those and
differ anywhere else (slots, `IBUF`, stale `OBUF` bytes, the hidden fields of `S`) give the host the same reply, or refuse it
alike (R24, R44). -/
def Obligations.RepliesDependOnVisibleStateOnly : Prop :=
  ∀ (m : HostMove) (s t : State), isReadMove m = true → sameVisible s t →
    (∃ (r : Reply) (s' t' : State), performMove m s = .next s' ∧ performMove m t = .next t' ∧
      s'.replies = s.replies ++ [r] ∧ t'.replies = t.replies ++ [r]) ∨
    ∃ q, performMove m s = .refused q ∧ performMove m t = .refused q

end
end

