-- ==== Sys2Proof/Laws/Memory.lean ====
section
/-!
SUPPORT. The laws of the operand buffers: reading after a write, and the canonical form.
-/

namespace Sys2Proof.Machine

theorem Memory.read_eq_unlisted_of_forall_ne (m : Memory) (a : Nat) (h : ∀ c ∈ m, c.1 ≠ a) :
    m.read a = Memory.unlisted := by
  induction m with
  | nil => rfl
  | cons c m ih =>
    simp only [Memory.read, h c (by simp), if_false]
    exact ih fun d hd => h d (by simp [hd])

theorem Memory.read_append_left (m n : Memory) (a : Nat) (h : ∀ c ∈ n, c.1 ≠ a) : (m ++ n).read a = m.read a := by
  induction m with
  | nil => exact Memory.read_eq_unlisted_of_forall_ne n a h
  | cons c m ih => simp only [List.cons_append, Memory.read, ih]

theorem Memory.read_append_right (m n : Memory) (a : Nat) (h : ∀ c ∈ m, c.1 ≠ a) : (m ++ n).read a = n.read a := by
  induction m with
  | nil => rfl
  | cons c m ih =>
    simp only [List.cons_append, Memory.read, h c (by simp), if_false]
    exact ih fun d hd => h d (by simp [hd])

theorem Memory.read_filter (m : Memory) (p : Host.Cell → Bool) (a : Nat) (h : ∀ c : Host.Cell, c.1 = a → p c = true) :
    Memory.read (m.filter p) a = m.read a := by
  induction m with
  | nil => rfl
  | cons c m ih =>
    by_cases hc : c.1 = a
    · simp [h c hc, Memory.read, hc]
    · cases hp : p c <;> simp [hp, Memory.read, hc, ih]

theorem Memory.mem_cellsOf {off : Nat} {v : List Byte} {c : Host.Cell} (h : c ∈ Memory.cellsOf off v) :
    off ≤ c.1 ∧ c.1 < off + v.length ∧ c.2 ≠ Memory.unlisted := by
  induction v generalizing off with
  | nil => simp [Memory.cellsOf] at h
  | cons b v ih =>
    rw [Memory.cellsOf] at h
    split at h
    · obtain ⟨h1, h2, h3⟩ := ih h
      exact ⟨by omega, by rw [List.length_cons]; omega, h3⟩
    · rename_i hb
      rcases List.mem_cons.mp h with rfl | h
      · simp [hb]
      · obtain ⟨h1, h2, h3⟩ := ih h
        exact ⟨by omega, by rw [List.length_cons]; omega, h3⟩

theorem Memory.read_cellsOf (off : Nat) (v : List Byte) (a : Nat) (h : off ≤ a) :
    (Memory.cellsOf off v).read a = v.getD (a - off) 0 := by
  induction v generalizing off with
  | nil => rfl
  | cons b v ih =>
    rw [Memory.cellsOf]
    by_cases ha : a = off
    · subst ha
      split
      · rename_i hb
        rw [Memory.read_eq_unlisted_of_forall_ne]
        · simp [hb]
        · intro c hc; have := Memory.mem_cellsOf hc; omega
      · simp [Memory.read]
    · have hlt : off + 1 ≤ a := by omega
      have e : a - off = (a - (off + 1)) + 1 := by omega
      rw [e, List.getD_cons_succ, ← ih (off + 1) hlt]
      split
      · rfl
      · simp [Memory.read, Ne.symm ha]

/-- Everything a write of a byte string does to the reads: inside the string it reads the string, outside the old byte. -/
theorem Memory.read_writeRange (m : Memory) (off : Nat) (v : List Byte) (a : Nat) :
    (m.writeRange off v).read a = if off ≤ a ∧ a < off + v.length then v.getD (a - off) 0 else m.read a := by
  unfold Memory.writeRange
  by_cases h1 : a < off
  · rw [if_neg (by omega), Memory.read_append_left, Memory.read_append_left, Memory.read_filter]
    · intro c hc; simpa [hc] using h1
    · intro c hc; have := Memory.mem_cellsOf hc; omega
    · intro c hc; have := List.mem_filter.mp hc; simp at this; omega
  · by_cases h2 : a < off + v.length
    · rw [if_pos (by omega), Memory.read_append_left, Memory.read_append_right, Memory.read_cellsOf _ _ _ (by omega)]
      · intro c hc; have := List.mem_filter.mp hc; simp at this; omega
      · intro c hc; have := List.mem_filter.mp hc; simp at this; omega
    · rw [if_neg (by omega), Memory.read_append_right, Memory.read_filter]
      · intro c hc; simp [hc]; omega
      · intro c hc
        rcases List.mem_append.mp hc with hc | hc
        · have := List.mem_filter.mp hc; simp at this; omega
        · have := Memory.mem_cellsOf hc; omega

theorem Memory.cellsOf_rising (off : Nat) (v : List Byte) :
    (Memory.cellsOf off v).Pairwise fun a b => a.1 < b.1 := by
  induction v generalizing off with
  | nil => simp [Memory.cellsOf]
  | cons b v ih =>
    rw [Memory.cellsOf]
    split
    · exact ih _
    · refine List.Pairwise.cons ?_ (ih _)
      intro c hc
      have h := Memory.mem_cellsOf hc
      simp only
      omega

theorem Memory.wf_iff (m : Memory) :
    m.wf = true ↔ m.Pairwise (fun a b => a.1 < b.1) ∧ ∀ c ∈ m, c.1 < bufsz ∧ c.2 ≠ Memory.unlisted := by
  simp [Memory.wf]

/-- The only operation that changes a buffer keeps its canonical form. -/
theorem Memory.writeRange_wf (m : Memory) (off : Nat) (v : List Byte) (h : m.wf = true) (hr : off + v.length ≤ bufsz) :
    (m.writeRange off v).wf = true := by
  rw [Memory.wf_iff] at h ⊢
  obtain ⟨hp, hc⟩ := h
  unfold Memory.writeRange
  constructor
  · rw [List.pairwise_append, List.pairwise_append]
    refine ⟨⟨hp.filter _, Memory.cellsOf_rising _ _, ?_⟩, hp.filter _, ?_⟩
    · intro a ha b hb
      have h1 := List.mem_filter.mp ha
      have h2 := Memory.mem_cellsOf hb
      simp at h1
      omega
    · intro a ha b hb
      have h2 := List.mem_filter.mp hb
      simp at h2
      rcases List.mem_append.mp ha with ha | ha
      · have h1 := List.mem_filter.mp ha
        simp at h1
        omega
      · have h1 := Memory.mem_cellsOf ha
        omega
  · intro c hm
    rcases List.mem_append.mp hm with hm | hm
    · rcases List.mem_append.mp hm with hm | hm
      · exact hc c (List.mem_filter.mp hm).1
      · have := Memory.mem_cellsOf hm
        exact ⟨by omega, this.2.2⟩
    · exact hc c (List.mem_filter.mp hm).1

@[simp] theorem Memory.length_readRange (m : Memory) (off n : Nat) : (m.readRange off n).length = n := by
  simp [Memory.readRange]

theorem Memory.getD_readRange (m : Memory) (off n j : Nat) (h : j < n) : (m.readRange off n).getD j 0 = m.read (off + j) := by
  simp [Memory.readRange, List.getD, h]

/-- Two canonical buffers that read the same are the same list of cells. -/
theorem Memory.eq_of_read_eq (m n : Memory) (hm : m.wf = true) (hn : n.wf = true) (h : ∀ a, m.read a = n.read a) : m = n := by
  rw [Memory.wf_iff] at hm hn
  induction m generalizing n with
  | nil =>
    cases n with
    | nil => rfl
    | cons d n => exact absurd (by simpa [Memory.read] using (h d.1).symm) (hn.2 d (by simp)).2
  | cons c m ih =>
    cases n with
    | nil => exact absurd (by simpa [Memory.read] using h c.1) (hm.2 c (by simp)).2
    | cons d n =>
      have hc := List.pairwise_cons.mp hm.1
      have hd := List.pairwise_cons.mp hn.1
      have below : ∀ (l : Memory) (x : Nat), (∀ e ∈ l, x < e.1) → l.read x = Memory.unlisted := fun l x hl =>
        Memory.read_eq_unlisted_of_forall_ne l x fun e he => by have := hl e he; omega
      have haddr : c.1 = d.1 := by
        rcases Nat.lt_trichotomy c.1 d.1 with hlt | heq | hgt
        · have := h c.1
          rw [below (d :: n) c.1] at this
          · exact absurd (by simpa [Memory.read] using this) (hm.2 c (by simp)).2
          · intro e he
            rcases List.mem_cons.mp he with rfl | he
            · exact hlt
            · exact lt_trans hlt (hd.1 e he)
        · exact heq
        · have := h d.1
          rw [below (c :: m) d.1] at this
          · exact absurd (by simpa [Memory.read] using this.symm) (hn.2 d (by simp)).2
          · intro e he
            rcases List.mem_cons.mp he with rfl | he
            · exact hgt
            · exact lt_trans hgt (hc.1 e he)
      have hval : c.2 = d.2 := by simpa [Memory.read, haddr] using h c.1
      have hrest : m = n := by
        refine ih n ⟨hc.2, fun e he => hm.2 e (by simp [he])⟩ ⟨hd.2, fun e he => hn.2 e (by simp [he])⟩ fun a => ?_
        by_cases ha : a = c.1
        · rw [below m a (fun e he => ha ▸ hc.1 e he), below n a (fun e he => by rw [ha, haddr]; exact hd.1 e he)]
        · have hda : d.1 ≠ a := fun hda => ha (haddr ▸ hda.symm)
          simpa [Memory.read, Ne.symm ha, hda] using h a
      exact by rw [Prod.ext haddr hval, hrest]

end Sys2Proof.Machine
end

