-- ==== Sys2Proof/Laws/State.lean ====
section
/-!
SUPPORT. What each named update of the state does to each field, true by definition.
-/

namespace Sys2Proof.Machine

@[simp] theorem State.out_k (s : State) (v : List Byte) : (s.out v).k = s.k := rfl
@[simp] theorem State.out_kv (s : State) (v : List Byte) : (s.out v).kv = s.kv := rfl
@[simp] theorem State.out_nk (s : State) (v : List Byte) : (s.out v).nk = s.nk := rfl
@[simp] theorem State.out_stream (s : State) (v : List Byte) : (s.out v).stream = s.stream := rfl
@[simp] theorem State.out_ibuf (s : State) (v : List Byte) : (s.out v).ibuf = s.ibuf := rfl
@[simp] theorem State.out_ilen (s : State) (v : List Byte) : (s.out v).ilen = s.ilen := rfl
@[simp] theorem State.out_obuf (s : State) (v : List Byte) : (s.out v).obuf = s.obuf.writeRange 0 v := rfl
@[simp] theorem State.out_olen (s : State) (v : List Byte) : (s.out v).olen = BitVec.ofNat 16 v.length := rfl
@[simp] theorem State.out_sin (s : State) (v : List Byte) : (s.out v).sin = s.sin := rfl
@[simp] theorem State.out_sout (s : State) (v : List Byte) : (s.out v).sout = s.sout := rfl
@[simp] theorem State.out_err (s : State) (v : List Byte) : (s.out v).err = s.err := rfl
@[simp] theorem State.out_integ (s : State) (v : List Byte) : (s.out v).integ = s.integ := rfl
@[simp] theorem State.out_attrbad (s : State) (v : List Byte) : (s.out v).attrbad = s.attrbad := rfl
@[simp] theorem State.out_noBoundary (s : State) (v : List Byte) : (s.out v).noBoundary = s.noBoundary := rfl
@[simp] theorem State.out_arg0 (s : State) (v : List Byte) : (s.out v).arg0 = s.arg0 := rfl
@[simp] theorem State.out_arg1 (s : State) (v : List Byte) : (s.out v).arg1 = s.arg1 := rfl
@[simp] theorem State.out_res (s : State) (v : List Byte) : (s.out v).res = s.res := rfl
@[simp] theorem State.out_packsz (s : State) (v : List Byte) : (s.out v).packsz = s.packsz := rfl
@[simp] theorem State.out_moves (s : State) (v : List Byte) : (s.out v).moves = s.moves := rfl
@[simp] theorem State.out_replies (s : State) (v : List Byte) : (s.out v).replies = s.replies := rfl
@[simp] theorem State.out_entropy (s : State) (v : List Byte) : (s.out v).entropy = s.entropy := rfl
@[simp] theorem State.out_draws (s : State) (v : List Byte) : (s.out v).draws = s.draws := rfl

@[simp] theorem State.noOutput_k (s : State) : (s.noOutput).k = s.k := rfl
@[simp] theorem State.noOutput_kv (s : State) : (s.noOutput).kv = s.kv := rfl
@[simp] theorem State.noOutput_nk (s : State) : (s.noOutput).nk = s.nk := rfl
@[simp] theorem State.noOutput_stream (s : State) : (s.noOutput).stream = s.stream := rfl
@[simp] theorem State.noOutput_ibuf (s : State) : (s.noOutput).ibuf = s.ibuf := rfl
@[simp] theorem State.noOutput_ilen (s : State) : (s.noOutput).ilen = s.ilen := rfl
@[simp] theorem State.noOutput_obuf (s : State) : (s.noOutput).obuf = s.obuf := rfl
@[simp] theorem State.noOutput_olen (s : State) : (s.noOutput).olen = 0 := rfl
@[simp] theorem State.noOutput_sin (s : State) : (s.noOutput).sin = s.sin := rfl
@[simp] theorem State.noOutput_sout (s : State) : (s.noOutput).sout = s.sout := rfl
@[simp] theorem State.noOutput_err (s : State) : (s.noOutput).err = s.err := rfl
@[simp] theorem State.noOutput_integ (s : State) : (s.noOutput).integ = s.integ := rfl
@[simp] theorem State.noOutput_attrbad (s : State) : (s.noOutput).attrbad = s.attrbad := rfl
@[simp] theorem State.noOutput_noBoundary (s : State) : (s.noOutput).noBoundary = s.noBoundary := rfl
@[simp] theorem State.noOutput_arg0 (s : State) : (s.noOutput).arg0 = s.arg0 := rfl
@[simp] theorem State.noOutput_arg1 (s : State) : (s.noOutput).arg1 = s.arg1 := rfl
@[simp] theorem State.noOutput_res (s : State) : (s.noOutput).res = s.res := rfl
@[simp] theorem State.noOutput_packsz (s : State) : (s.noOutput).packsz = s.packsz := rfl
@[simp] theorem State.noOutput_moves (s : State) : (s.noOutput).moves = s.moves := rfl
@[simp] theorem State.noOutput_replies (s : State) : (s.noOutput).replies = s.replies := rfl
@[simp] theorem State.noOutput_entropy (s : State) : (s.noOutput).entropy = s.entropy := rfl
@[simp] theorem State.noOutput_draws (s : State) : (s.noOutput).draws = s.draws := rfl

@[simp] theorem State.setSlot_k (s : State) (sd : Slot) (key : Block) : (s.setSlot sd key).k = s.k.set sd key := rfl
@[simp] theorem State.setSlot_kv (s : State) (sd : Slot) (key : Block) : (s.setSlot sd key).kv = s.kv.set sd true := rfl
@[simp] theorem State.setSlot_nk (s : State) (sd : Slot) (key : Block) : (s.setSlot sd key).nk = s.nk := rfl
@[simp] theorem State.setSlot_stream (s : State) (sd : Slot) (key : Block) : (s.setSlot sd key).stream = s.stream := rfl
@[simp] theorem State.setSlot_ibuf (s : State) (sd : Slot) (key : Block) : (s.setSlot sd key).ibuf = s.ibuf := rfl
@[simp] theorem State.setSlot_ilen (s : State) (sd : Slot) (key : Block) : (s.setSlot sd key).ilen = s.ilen := rfl
@[simp] theorem State.setSlot_obuf (s : State) (sd : Slot) (key : Block) : (s.setSlot sd key).obuf = s.obuf := rfl
@[simp] theorem State.setSlot_olen (s : State) (sd : Slot) (key : Block) : (s.setSlot sd key).olen = s.olen := rfl
@[simp] theorem State.setSlot_sin (s : State) (sd : Slot) (key : Block) : (s.setSlot sd key).sin = s.sin := rfl
@[simp] theorem State.setSlot_sout (s : State) (sd : Slot) (key : Block) : (s.setSlot sd key).sout = s.sout := rfl
@[simp] theorem State.setSlot_err (s : State) (sd : Slot) (key : Block) : (s.setSlot sd key).err = s.err := rfl
@[simp] theorem State.setSlot_integ (s : State) (sd : Slot) (key : Block) : (s.setSlot sd key).integ = s.integ := rfl
@[simp] theorem State.setSlot_attrbad (s : State) (sd : Slot) (key : Block) : (s.setSlot sd key).attrbad = s.attrbad := rfl
@[simp] theorem State.setSlot_noBoundary (s : State) (sd : Slot) (key : Block) : (s.setSlot sd key).noBoundary = s.noBoundary := rfl
@[simp] theorem State.setSlot_arg0 (s : State) (sd : Slot) (key : Block) : (s.setSlot sd key).arg0 = s.arg0 := rfl
@[simp] theorem State.setSlot_arg1 (s : State) (sd : Slot) (key : Block) : (s.setSlot sd key).arg1 = s.arg1 := rfl
@[simp] theorem State.setSlot_res (s : State) (sd : Slot) (key : Block) : (s.setSlot sd key).res = s.res := rfl
@[simp] theorem State.setSlot_packsz (s : State) (sd : Slot) (key : Block) : (s.setSlot sd key).packsz = s.packsz := rfl
@[simp] theorem State.setSlot_moves (s : State) (sd : Slot) (key : Block) : (s.setSlot sd key).moves = s.moves := rfl
@[simp] theorem State.setSlot_replies (s : State) (sd : Slot) (key : Block) : (s.setSlot sd key).replies = s.replies := rfl
@[simp] theorem State.setSlot_entropy (s : State) (sd : Slot) (key : Block) : (s.setSlot sd key).entropy = s.entropy := rfl
@[simp] theorem State.setSlot_draws (s : State) (sd : Slot) (key : Block) : (s.setSlot sd key).draws = s.draws := rfl

@[simp] theorem State.clearSlot_k (s : State) (sd : Slot) : (s.clearSlot sd).k = s.k.set sd (zeros 16) := rfl
@[simp] theorem State.clearSlot_kv (s : State) (sd : Slot) : (s.clearSlot sd).kv = s.kv.set sd false := rfl
@[simp] theorem State.clearSlot_nk (s : State) (sd : Slot) : (s.clearSlot sd).nk = s.nk := rfl
@[simp] theorem State.clearSlot_stream (s : State) (sd : Slot) : (s.clearSlot sd).stream = s.stream := rfl
@[simp] theorem State.clearSlot_ibuf (s : State) (sd : Slot) : (s.clearSlot sd).ibuf = s.ibuf := rfl
@[simp] theorem State.clearSlot_ilen (s : State) (sd : Slot) : (s.clearSlot sd).ilen = s.ilen := rfl
@[simp] theorem State.clearSlot_obuf (s : State) (sd : Slot) : (s.clearSlot sd).obuf = s.obuf := rfl
@[simp] theorem State.clearSlot_olen (s : State) (sd : Slot) : (s.clearSlot sd).olen = s.olen := rfl
@[simp] theorem State.clearSlot_sin (s : State) (sd : Slot) : (s.clearSlot sd).sin = s.sin := rfl
@[simp] theorem State.clearSlot_sout (s : State) (sd : Slot) : (s.clearSlot sd).sout = s.sout := rfl
@[simp] theorem State.clearSlot_err (s : State) (sd : Slot) : (s.clearSlot sd).err = s.err := rfl
@[simp] theorem State.clearSlot_integ (s : State) (sd : Slot) : (s.clearSlot sd).integ = s.integ := rfl
@[simp] theorem State.clearSlot_attrbad (s : State) (sd : Slot) : (s.clearSlot sd).attrbad = s.attrbad := rfl
@[simp] theorem State.clearSlot_noBoundary (s : State) (sd : Slot) : (s.clearSlot sd).noBoundary = s.noBoundary := rfl
@[simp] theorem State.clearSlot_arg0 (s : State) (sd : Slot) : (s.clearSlot sd).arg0 = s.arg0 := rfl
@[simp] theorem State.clearSlot_arg1 (s : State) (sd : Slot) : (s.clearSlot sd).arg1 = s.arg1 := rfl
@[simp] theorem State.clearSlot_res (s : State) (sd : Slot) : (s.clearSlot sd).res = s.res := rfl
@[simp] theorem State.clearSlot_packsz (s : State) (sd : Slot) : (s.clearSlot sd).packsz = s.packsz := rfl
@[simp] theorem State.clearSlot_moves (s : State) (sd : Slot) : (s.clearSlot sd).moves = s.moves := rfl
@[simp] theorem State.clearSlot_replies (s : State) (sd : Slot) : (s.clearSlot sd).replies = s.replies := rfl
@[simp] theorem State.clearSlot_entropy (s : State) (sd : Slot) : (s.clearSlot sd).entropy = s.entropy := rfl
@[simp] theorem State.clearSlot_draws (s : State) (sd : Slot) : (s.clearSlot sd).draws = s.draws := rfl

@[simp] theorem State.setNode_k (s : State) (n : NodeKey) : (s.setNode n).k = s.k := rfl
@[simp] theorem State.setNode_kv (s : State) (n : NodeKey) : (s.setNode n).kv = s.kv := rfl
@[simp] theorem State.setNode_nk (s : State) (n : NodeKey) : (s.setNode n).nk = n := rfl
@[simp] theorem State.setNode_stream (s : State) (n : NodeKey) : (s.setNode n).stream = s.stream := rfl
@[simp] theorem State.setNode_ibuf (s : State) (n : NodeKey) : (s.setNode n).ibuf = s.ibuf := rfl
@[simp] theorem State.setNode_ilen (s : State) (n : NodeKey) : (s.setNode n).ilen = s.ilen := rfl
@[simp] theorem State.setNode_obuf (s : State) (n : NodeKey) : (s.setNode n).obuf = s.obuf := rfl
@[simp] theorem State.setNode_olen (s : State) (n : NodeKey) : (s.setNode n).olen = s.olen := rfl
@[simp] theorem State.setNode_sin (s : State) (n : NodeKey) : (s.setNode n).sin = s.sin := rfl
@[simp] theorem State.setNode_sout (s : State) (n : NodeKey) : (s.setNode n).sout = s.sout := rfl
@[simp] theorem State.setNode_err (s : State) (n : NodeKey) : (s.setNode n).err = s.err := rfl
@[simp] theorem State.setNode_integ (s : State) (n : NodeKey) : (s.setNode n).integ = s.integ := rfl
@[simp] theorem State.setNode_attrbad (s : State) (n : NodeKey) : (s.setNode n).attrbad = s.attrbad := rfl
@[simp] theorem State.setNode_noBoundary (s : State) (n : NodeKey) : (s.setNode n).noBoundary = s.noBoundary := rfl
@[simp] theorem State.setNode_arg0 (s : State) (n : NodeKey) : (s.setNode n).arg0 = s.arg0 := rfl
@[simp] theorem State.setNode_arg1 (s : State) (n : NodeKey) : (s.setNode n).arg1 = s.arg1 := rfl
@[simp] theorem State.setNode_res (s : State) (n : NodeKey) : (s.setNode n).res = s.res := rfl
@[simp] theorem State.setNode_packsz (s : State) (n : NodeKey) : (s.setNode n).packsz = s.packsz := rfl
@[simp] theorem State.setNode_moves (s : State) (n : NodeKey) : (s.setNode n).moves = s.moves := rfl
@[simp] theorem State.setNode_replies (s : State) (n : NodeKey) : (s.setNode n).replies = s.replies := rfl
@[simp] theorem State.setNode_entropy (s : State) (n : NodeKey) : (s.setNode n).entropy = s.entropy := rfl
@[simp] theorem State.setNode_draws (s : State) (n : NodeKey) : (s.setNode n).draws = s.draws := rfl

@[simp] theorem State.setStream_k (s : State) (S : Stream) : (s.setStream S).k = s.k := rfl
@[simp] theorem State.setStream_kv (s : State) (S : Stream) : (s.setStream S).kv = s.kv := rfl
@[simp] theorem State.setStream_nk (s : State) (S : Stream) : (s.setStream S).nk = s.nk := rfl
@[simp] theorem State.setStream_stream (s : State) (S : Stream) : (s.setStream S).stream = S := rfl
@[simp] theorem State.setStream_ibuf (s : State) (S : Stream) : (s.setStream S).ibuf = s.ibuf := rfl
@[simp] theorem State.setStream_ilen (s : State) (S : Stream) : (s.setStream S).ilen = s.ilen := rfl
@[simp] theorem State.setStream_obuf (s : State) (S : Stream) : (s.setStream S).obuf = s.obuf := rfl
@[simp] theorem State.setStream_olen (s : State) (S : Stream) : (s.setStream S).olen = s.olen := rfl
@[simp] theorem State.setStream_sin (s : State) (S : Stream) : (s.setStream S).sin = s.sin := rfl
@[simp] theorem State.setStream_sout (s : State) (S : Stream) : (s.setStream S).sout = s.sout := rfl
@[simp] theorem State.setStream_err (s : State) (S : Stream) : (s.setStream S).err = s.err := rfl
@[simp] theorem State.setStream_integ (s : State) (S : Stream) : (s.setStream S).integ = s.integ := rfl
@[simp] theorem State.setStream_attrbad (s : State) (S : Stream) : (s.setStream S).attrbad = s.attrbad := rfl
@[simp] theorem State.setStream_noBoundary (s : State) (S : Stream) : (s.setStream S).noBoundary = s.noBoundary := rfl
@[simp] theorem State.setStream_arg0 (s : State) (S : Stream) : (s.setStream S).arg0 = s.arg0 := rfl
@[simp] theorem State.setStream_arg1 (s : State) (S : Stream) : (s.setStream S).arg1 = s.arg1 := rfl
@[simp] theorem State.setStream_res (s : State) (S : Stream) : (s.setStream S).res = s.res := rfl
@[simp] theorem State.setStream_packsz (s : State) (S : Stream) : (s.setStream S).packsz = s.packsz := rfl
@[simp] theorem State.setStream_moves (s : State) (S : Stream) : (s.setStream S).moves = s.moves := rfl
@[simp] theorem State.setStream_replies (s : State) (S : Stream) : (s.setStream S).replies = s.replies := rfl
@[simp] theorem State.setStream_entropy (s : State) (S : Stream) : (s.setStream S).entropy = s.entropy := rfl
@[simp] theorem State.setStream_draws (s : State) (S : Stream) : (s.setStream S).draws = s.draws := rfl

@[simp] theorem State.setRes_k (s : State) (v : Nat) : (s.setRes v).k = s.k := rfl
@[simp] theorem State.setRes_kv (s : State) (v : Nat) : (s.setRes v).kv = s.kv := rfl
@[simp] theorem State.setRes_nk (s : State) (v : Nat) : (s.setRes v).nk = s.nk := rfl
@[simp] theorem State.setRes_stream (s : State) (v : Nat) : (s.setRes v).stream = s.stream := rfl
@[simp] theorem State.setRes_ibuf (s : State) (v : Nat) : (s.setRes v).ibuf = s.ibuf := rfl
@[simp] theorem State.setRes_ilen (s : State) (v : Nat) : (s.setRes v).ilen = s.ilen := rfl
@[simp] theorem State.setRes_obuf (s : State) (v : Nat) : (s.setRes v).obuf = s.obuf := rfl
@[simp] theorem State.setRes_olen (s : State) (v : Nat) : (s.setRes v).olen = s.olen := rfl
@[simp] theorem State.setRes_sin (s : State) (v : Nat) : (s.setRes v).sin = s.sin := rfl
@[simp] theorem State.setRes_sout (s : State) (v : Nat) : (s.setRes v).sout = s.sout := rfl
@[simp] theorem State.setRes_err (s : State) (v : Nat) : (s.setRes v).err = s.err := rfl
@[simp] theorem State.setRes_integ (s : State) (v : Nat) : (s.setRes v).integ = s.integ := rfl
@[simp] theorem State.setRes_attrbad (s : State) (v : Nat) : (s.setRes v).attrbad = s.attrbad := rfl
@[simp] theorem State.setRes_noBoundary (s : State) (v : Nat) : (s.setRes v).noBoundary = s.noBoundary := rfl
@[simp] theorem State.setRes_arg0 (s : State) (v : Nat) : (s.setRes v).arg0 = s.arg0 := rfl
@[simp] theorem State.setRes_arg1 (s : State) (v : Nat) : (s.setRes v).arg1 = s.arg1 := rfl
@[simp] theorem State.setRes_res (s : State) (v : Nat) : (s.setRes v).res = BitVec.ofNat 64 v := rfl
@[simp] theorem State.setRes_packsz (s : State) (v : Nat) : (s.setRes v).packsz = s.packsz := rfl
@[simp] theorem State.setRes_moves (s : State) (v : Nat) : (s.setRes v).moves = s.moves := rfl
@[simp] theorem State.setRes_replies (s : State) (v : Nat) : (s.setRes v).replies = s.replies := rfl
@[simp] theorem State.setRes_entropy (s : State) (v : Nat) : (s.setRes v).entropy = s.entropy := rfl
@[simp] theorem State.setRes_draws (s : State) (v : Nat) : (s.setRes v).draws = s.draws := rfl

@[simp] theorem State.emptyQueues_k (s : State) : (s.emptyQueues).k = s.k := rfl
@[simp] theorem State.emptyQueues_kv (s : State) : (s.emptyQueues).kv = s.kv := rfl
@[simp] theorem State.emptyQueues_nk (s : State) : (s.emptyQueues).nk = s.nk := rfl
@[simp] theorem State.emptyQueues_stream (s : State) : (s.emptyQueues).stream = s.stream := rfl
@[simp] theorem State.emptyQueues_ibuf (s : State) : (s.emptyQueues).ibuf = s.ibuf := rfl
@[simp] theorem State.emptyQueues_ilen (s : State) : (s.emptyQueues).ilen = s.ilen := rfl
@[simp] theorem State.emptyQueues_obuf (s : State) : (s.emptyQueues).obuf = s.obuf := rfl
@[simp] theorem State.emptyQueues_olen (s : State) : (s.emptyQueues).olen = s.olen := rfl
@[simp] theorem State.emptyQueues_sin (s : State) : (s.emptyQueues).sin = [] := rfl
@[simp] theorem State.emptyQueues_sout (s : State) : (s.emptyQueues).sout = [] := rfl
@[simp] theorem State.emptyQueues_err (s : State) : (s.emptyQueues).err = s.err := rfl
@[simp] theorem State.emptyQueues_integ (s : State) : (s.emptyQueues).integ = s.integ := rfl
@[simp] theorem State.emptyQueues_attrbad (s : State) : (s.emptyQueues).attrbad = s.attrbad := rfl
@[simp] theorem State.emptyQueues_noBoundary (s : State) : (s.emptyQueues).noBoundary = s.noBoundary := rfl
@[simp] theorem State.emptyQueues_arg0 (s : State) : (s.emptyQueues).arg0 = s.arg0 := rfl
@[simp] theorem State.emptyQueues_arg1 (s : State) : (s.emptyQueues).arg1 = s.arg1 := rfl
@[simp] theorem State.emptyQueues_res (s : State) : (s.emptyQueues).res = s.res := rfl
@[simp] theorem State.emptyQueues_packsz (s : State) : (s.emptyQueues).packsz = s.packsz := rfl
@[simp] theorem State.emptyQueues_moves (s : State) : (s.emptyQueues).moves = s.moves := rfl
@[simp] theorem State.emptyQueues_replies (s : State) : (s.emptyQueues).replies = s.replies := rfl
@[simp] theorem State.emptyQueues_entropy (s : State) : (s.emptyQueues).entropy = s.entropy := rfl
@[simp] theorem State.emptyQueues_draws (s : State) : (s.emptyQueues).draws = s.draws := rfl

@[simp] theorem State.openStream_k (s : State) (m : StreamMode) (key : Block) (iv mac : Bytes 8) : (s.openStream m key iv mac).k = s.k := rfl
@[simp] theorem State.openStream_kv (s : State) (m : StreamMode) (key : Block) (iv mac : Bytes 8) : (s.openStream m key iv mac).kv = s.kv := rfl
@[simp] theorem State.openStream_nk (s : State) (m : StreamMode) (key : Block) (iv mac : Bytes 8) : (s.openStream m key iv mac).nk = s.nk := rfl
@[simp] theorem State.openStream_stream (s : State) (m : StreamMode) (key : Block) (iv mac : Bytes 8) : (s.openStream m key iv mac).stream = Stream.fresh m key iv mac s.arg0 := rfl
@[simp] theorem State.openStream_ibuf (s : State) (m : StreamMode) (key : Block) (iv mac : Bytes 8) : (s.openStream m key iv mac).ibuf = s.ibuf := rfl
@[simp] theorem State.openStream_ilen (s : State) (m : StreamMode) (key : Block) (iv mac : Bytes 8) : (s.openStream m key iv mac).ilen = s.ilen := rfl
@[simp] theorem State.openStream_obuf (s : State) (m : StreamMode) (key : Block) (iv mac : Bytes 8) : (s.openStream m key iv mac).obuf = s.obuf := rfl
@[simp] theorem State.openStream_olen (s : State) (m : StreamMode) (key : Block) (iv mac : Bytes 8) : (s.openStream m key iv mac).olen = s.olen := rfl
@[simp] theorem State.openStream_sin (s : State) (m : StreamMode) (key : Block) (iv mac : Bytes 8) : (s.openStream m key iv mac).sin = [] := rfl
@[simp] theorem State.openStream_sout (s : State) (m : StreamMode) (key : Block) (iv mac : Bytes 8) : (s.openStream m key iv mac).sout = [] := rfl
@[simp] theorem State.openStream_err (s : State) (m : StreamMode) (key : Block) (iv mac : Bytes 8) : (s.openStream m key iv mac).err = s.err := rfl
@[simp] theorem State.openStream_integ (s : State) (m : StreamMode) (key : Block) (iv mac : Bytes 8) : (s.openStream m key iv mac).integ = false := rfl
@[simp] theorem State.openStream_attrbad (s : State) (m : StreamMode) (key : Block) (iv mac : Bytes 8) : (s.openStream m key iv mac).attrbad = s.attrbad := rfl
@[simp] theorem State.openStream_noBoundary (s : State) (m : StreamMode) (key : Block) (iv mac : Bytes 8) : (s.openStream m key iv mac).noBoundary = s.noBoundary := rfl
@[simp] theorem State.openStream_arg0 (s : State) (m : StreamMode) (key : Block) (iv mac : Bytes 8) : (s.openStream m key iv mac).arg0 = s.arg0 := rfl
@[simp] theorem State.openStream_arg1 (s : State) (m : StreamMode) (key : Block) (iv mac : Bytes 8) : (s.openStream m key iv mac).arg1 = s.arg1 := rfl
@[simp] theorem State.openStream_res (s : State) (m : StreamMode) (key : Block) (iv mac : Bytes 8) : (s.openStream m key iv mac).res = s.res := rfl
@[simp] theorem State.openStream_packsz (s : State) (m : StreamMode) (key : Block) (iv mac : Bytes 8) : (s.openStream m key iv mac).packsz = s.packsz := rfl
@[simp] theorem State.openStream_moves (s : State) (m : StreamMode) (key : Block) (iv mac : Bytes 8) : (s.openStream m key iv mac).moves = s.moves := rfl
@[simp] theorem State.openStream_replies (s : State) (m : StreamMode) (key : Block) (iv mac : Bytes 8) : (s.openStream m key iv mac).replies = s.replies := rfl
@[simp] theorem State.openStream_entropy (s : State) (m : StreamMode) (key : Block) (iv mac : Bytes 8) : (s.openStream m key iv mac).entropy = s.entropy := rfl
@[simp] theorem State.openStream_draws (s : State) (m : StreamMode) (key : Block) (iv mac : Bytes 8) : (s.openStream m key iv mac).draws = s.draws := rfl

@[simp] theorem State.resetCore_k (s : State) : (s.resetCore).k = State.reset.k := rfl
@[simp] theorem State.resetCore_kv (s : State) : (s.resetCore).kv = State.reset.kv := rfl
@[simp] theorem State.resetCore_nk (s : State) : (s.resetCore).nk = State.reset.nk := rfl
@[simp] theorem State.resetCore_stream (s : State) : (s.resetCore).stream = State.reset.stream := rfl
@[simp] theorem State.resetCore_ibuf (s : State) : (s.resetCore).ibuf = State.reset.ibuf := rfl
@[simp] theorem State.resetCore_ilen (s : State) : (s.resetCore).ilen = State.reset.ilen := rfl
@[simp] theorem State.resetCore_obuf (s : State) : (s.resetCore).obuf = State.reset.obuf := rfl
@[simp] theorem State.resetCore_olen (s : State) : (s.resetCore).olen = State.reset.olen := rfl
@[simp] theorem State.resetCore_sin (s : State) : (s.resetCore).sin = State.reset.sin := rfl
@[simp] theorem State.resetCore_sout (s : State) : (s.resetCore).sout = State.reset.sout := rfl
@[simp] theorem State.resetCore_err (s : State) : (s.resetCore).err = State.reset.err := rfl
@[simp] theorem State.resetCore_integ (s : State) : (s.resetCore).integ = State.reset.integ := rfl
@[simp] theorem State.resetCore_attrbad (s : State) : (s.resetCore).attrbad = State.reset.attrbad := rfl
@[simp] theorem State.resetCore_noBoundary (s : State) : (s.resetCore).noBoundary = State.reset.noBoundary := rfl
@[simp] theorem State.resetCore_arg0 (s : State) : (s.resetCore).arg0 = State.reset.arg0 := rfl
@[simp] theorem State.resetCore_arg1 (s : State) : (s.resetCore).arg1 = State.reset.arg1 := rfl
@[simp] theorem State.resetCore_res (s : State) : (s.resetCore).res = State.reset.res := rfl
@[simp] theorem State.resetCore_packsz (s : State) : (s.resetCore).packsz = State.reset.packsz := rfl
@[simp] theorem State.resetCore_moves (s : State) : (s.resetCore).moves = s.moves := rfl
@[simp] theorem State.resetCore_replies (s : State) : (s.resetCore).replies = s.replies := rfl
@[simp] theorem State.resetCore_entropy (s : State) : (s.resetCore).entropy = s.entropy := rfl
@[simp] theorem State.resetCore_draws (s : State) : (s.resetCore).draws = s.draws := rfl

@[simp] theorem State.setInteg_k (s : State) (b : Bool) : (s.setInteg b).k = s.k := rfl
@[simp] theorem State.setInteg_kv (s : State) (b : Bool) : (s.setInteg b).kv = s.kv := rfl
@[simp] theorem State.setInteg_nk (s : State) (b : Bool) : (s.setInteg b).nk = s.nk := rfl
@[simp] theorem State.setInteg_stream (s : State) (b : Bool) : (s.setInteg b).stream = s.stream := rfl
@[simp] theorem State.setInteg_ibuf (s : State) (b : Bool) : (s.setInteg b).ibuf = s.ibuf := rfl
@[simp] theorem State.setInteg_ilen (s : State) (b : Bool) : (s.setInteg b).ilen = s.ilen := rfl
@[simp] theorem State.setInteg_obuf (s : State) (b : Bool) : (s.setInteg b).obuf = s.obuf := rfl
@[simp] theorem State.setInteg_olen (s : State) (b : Bool) : (s.setInteg b).olen = s.olen := rfl
@[simp] theorem State.setInteg_sin (s : State) (b : Bool) : (s.setInteg b).sin = s.sin := rfl
@[simp] theorem State.setInteg_sout (s : State) (b : Bool) : (s.setInteg b).sout = s.sout := rfl
@[simp] theorem State.setInteg_err (s : State) (b : Bool) : (s.setInteg b).err = s.err := rfl
@[simp] theorem State.setInteg_integ (s : State) (b : Bool) : (s.setInteg b).integ = b := rfl
@[simp] theorem State.setInteg_attrbad (s : State) (b : Bool) : (s.setInteg b).attrbad = s.attrbad := rfl
@[simp] theorem State.setInteg_noBoundary (s : State) (b : Bool) : (s.setInteg b).noBoundary = s.noBoundary := rfl
@[simp] theorem State.setInteg_arg0 (s : State) (b : Bool) : (s.setInteg b).arg0 = s.arg0 := rfl
@[simp] theorem State.setInteg_arg1 (s : State) (b : Bool) : (s.setInteg b).arg1 = s.arg1 := rfl
@[simp] theorem State.setInteg_res (s : State) (b : Bool) : (s.setInteg b).res = s.res := rfl
@[simp] theorem State.setInteg_packsz (s : State) (b : Bool) : (s.setInteg b).packsz = s.packsz := rfl
@[simp] theorem State.setInteg_moves (s : State) (b : Bool) : (s.setInteg b).moves = s.moves := rfl
@[simp] theorem State.setInteg_replies (s : State) (b : Bool) : (s.setInteg b).replies = s.replies := rfl
@[simp] theorem State.setInteg_entropy (s : State) (b : Bool) : (s.setInteg b).entropy = s.entropy := rfl
@[simp] theorem State.setInteg_draws (s : State) (b : Bool) : (s.setInteg b).draws = s.draws := rfl

@[simp] theorem State.setAttrbad_k (s : State) (b : Bool) : (s.setAttrbad b).k = s.k := rfl
@[simp] theorem State.setAttrbad_kv (s : State) (b : Bool) : (s.setAttrbad b).kv = s.kv := rfl
@[simp] theorem State.setAttrbad_nk (s : State) (b : Bool) : (s.setAttrbad b).nk = s.nk := rfl
@[simp] theorem State.setAttrbad_stream (s : State) (b : Bool) : (s.setAttrbad b).stream = s.stream := rfl
@[simp] theorem State.setAttrbad_ibuf (s : State) (b : Bool) : (s.setAttrbad b).ibuf = s.ibuf := rfl
@[simp] theorem State.setAttrbad_ilen (s : State) (b : Bool) : (s.setAttrbad b).ilen = s.ilen := rfl
@[simp] theorem State.setAttrbad_obuf (s : State) (b : Bool) : (s.setAttrbad b).obuf = s.obuf := rfl
@[simp] theorem State.setAttrbad_olen (s : State) (b : Bool) : (s.setAttrbad b).olen = s.olen := rfl
@[simp] theorem State.setAttrbad_sin (s : State) (b : Bool) : (s.setAttrbad b).sin = s.sin := rfl
@[simp] theorem State.setAttrbad_sout (s : State) (b : Bool) : (s.setAttrbad b).sout = s.sout := rfl
@[simp] theorem State.setAttrbad_err (s : State) (b : Bool) : (s.setAttrbad b).err = s.err := rfl
@[simp] theorem State.setAttrbad_integ (s : State) (b : Bool) : (s.setAttrbad b).integ = s.integ := rfl
@[simp] theorem State.setAttrbad_attrbad (s : State) (b : Bool) : (s.setAttrbad b).attrbad = b := rfl
@[simp] theorem State.setAttrbad_noBoundary (s : State) (b : Bool) : (s.setAttrbad b).noBoundary = s.noBoundary := rfl
@[simp] theorem State.setAttrbad_arg0 (s : State) (b : Bool) : (s.setAttrbad b).arg0 = s.arg0 := rfl
@[simp] theorem State.setAttrbad_arg1 (s : State) (b : Bool) : (s.setAttrbad b).arg1 = s.arg1 := rfl
@[simp] theorem State.setAttrbad_res (s : State) (b : Bool) : (s.setAttrbad b).res = s.res := rfl
@[simp] theorem State.setAttrbad_packsz (s : State) (b : Bool) : (s.setAttrbad b).packsz = s.packsz := rfl
@[simp] theorem State.setAttrbad_moves (s : State) (b : Bool) : (s.setAttrbad b).moves = s.moves := rfl
@[simp] theorem State.setAttrbad_replies (s : State) (b : Bool) : (s.setAttrbad b).replies = s.replies := rfl
@[simp] theorem State.setAttrbad_entropy (s : State) (b : Bool) : (s.setAttrbad b).entropy = s.entropy := rfl
@[simp] theorem State.setAttrbad_draws (s : State) (b : Bool) : (s.setAttrbad b).draws = s.draws := rfl

@[simp] theorem State.setNone_k (s : State) (b : Bool) : (s.setNone b).k = s.k := rfl
@[simp] theorem State.setNone_kv (s : State) (b : Bool) : (s.setNone b).kv = s.kv := rfl
@[simp] theorem State.setNone_nk (s : State) (b : Bool) : (s.setNone b).nk = s.nk := rfl
@[simp] theorem State.setNone_stream (s : State) (b : Bool) : (s.setNone b).stream = s.stream := rfl
@[simp] theorem State.setNone_ibuf (s : State) (b : Bool) : (s.setNone b).ibuf = s.ibuf := rfl
@[simp] theorem State.setNone_ilen (s : State) (b : Bool) : (s.setNone b).ilen = s.ilen := rfl
@[simp] theorem State.setNone_obuf (s : State) (b : Bool) : (s.setNone b).obuf = s.obuf := rfl
@[simp] theorem State.setNone_olen (s : State) (b : Bool) : (s.setNone b).olen = s.olen := rfl
@[simp] theorem State.setNone_sin (s : State) (b : Bool) : (s.setNone b).sin = s.sin := rfl
@[simp] theorem State.setNone_sout (s : State) (b : Bool) : (s.setNone b).sout = s.sout := rfl
@[simp] theorem State.setNone_err (s : State) (b : Bool) : (s.setNone b).err = s.err := rfl
@[simp] theorem State.setNone_integ (s : State) (b : Bool) : (s.setNone b).integ = s.integ := rfl
@[simp] theorem State.setNone_attrbad (s : State) (b : Bool) : (s.setNone b).attrbad = s.attrbad := rfl
@[simp] theorem State.setNone_noBoundary (s : State) (b : Bool) : (s.setNone b).noBoundary = b := rfl
@[simp] theorem State.setNone_arg0 (s : State) (b : Bool) : (s.setNone b).arg0 = s.arg0 := rfl
@[simp] theorem State.setNone_arg1 (s : State) (b : Bool) : (s.setNone b).arg1 = s.arg1 := rfl
@[simp] theorem State.setNone_res (s : State) (b : Bool) : (s.setNone b).res = s.res := rfl
@[simp] theorem State.setNone_packsz (s : State) (b : Bool) : (s.setNone b).packsz = s.packsz := rfl
@[simp] theorem State.setNone_moves (s : State) (b : Bool) : (s.setNone b).moves = s.moves := rfl
@[simp] theorem State.setNone_replies (s : State) (b : Bool) : (s.setNone b).replies = s.replies := rfl
@[simp] theorem State.setNone_entropy (s : State) (b : Bool) : (s.setNone b).entropy = s.entropy := rfl
@[simp] theorem State.setNone_draws (s : State) (b : Bool) : (s.setNone b).draws = s.draws := rfl

@[simp] theorem State.readBytes_k (s : State) (n : Nat) : (s.readBytes n).k = s.k := rfl
@[simp] theorem State.readBytes_kv (s : State) (n : Nat) : (s.readBytes n).kv = s.kv := rfl
@[simp] theorem State.readBytes_nk (s : State) (n : Nat) : (s.readBytes n).nk = s.nk := rfl
@[simp] theorem State.readBytes_stream (s : State) (n : Nat) : (s.readBytes n).stream = (s.stream.consume params (s.sin.take n)).1 := rfl
@[simp] theorem State.readBytes_ibuf (s : State) (n : Nat) : (s.readBytes n).ibuf = s.ibuf := rfl
@[simp] theorem State.readBytes_ilen (s : State) (n : Nat) : (s.readBytes n).ilen = s.ilen := rfl
@[simp] theorem State.readBytes_obuf (s : State) (n : Nat) : (s.readBytes n).obuf = s.obuf := rfl
@[simp] theorem State.readBytes_olen (s : State) (n : Nat) : (s.readBytes n).olen = s.olen := rfl
@[simp] theorem State.readBytes_sin (s : State) (n : Nat) : (s.readBytes n).sin = s.sin.drop n := rfl
@[simp] theorem State.readBytes_sout (s : State) (n : Nat) : (s.readBytes n).sout = s.sout ++ (s.stream.consume params (s.sin.take n)).2 := rfl
@[simp] theorem State.readBytes_err (s : State) (n : Nat) : (s.readBytes n).err = s.err := rfl
@[simp] theorem State.readBytes_integ (s : State) (n : Nat) : (s.readBytes n).integ = s.integ := rfl
@[simp] theorem State.readBytes_attrbad (s : State) (n : Nat) : (s.readBytes n).attrbad = s.attrbad := rfl
@[simp] theorem State.readBytes_noBoundary (s : State) (n : Nat) : (s.readBytes n).noBoundary = s.noBoundary := rfl
@[simp] theorem State.readBytes_arg0 (s : State) (n : Nat) : (s.readBytes n).arg0 = s.arg0 := rfl
@[simp] theorem State.readBytes_arg1 (s : State) (n : Nat) : (s.readBytes n).arg1 = s.arg1 := rfl
@[simp] theorem State.readBytes_res (s : State) (n : Nat) : (s.readBytes n).res = BitVec.ofNat 64 n := rfl
@[simp] theorem State.readBytes_packsz (s : State) (n : Nat) : (s.readBytes n).packsz = s.packsz := rfl
@[simp] theorem State.readBytes_moves (s : State) (n : Nat) : (s.readBytes n).moves = s.moves := rfl
@[simp] theorem State.readBytes_replies (s : State) (n : Nat) : (s.readBytes n).replies = s.replies := rfl
@[simp] theorem State.readBytes_entropy (s : State) (n : Nat) : (s.readBytes n).entropy = s.entropy := rfl
@[simp] theorem State.readBytes_draws (s : State) (n : Nat) : (s.readBytes n).draws = s.draws := rfl

@[simp] theorem State.reply_k (s : State) (r : Reply) : (s.reply r).k = s.k := rfl
@[simp] theorem State.reply_kv (s : State) (r : Reply) : (s.reply r).kv = s.kv := rfl
@[simp] theorem State.reply_nk (s : State) (r : Reply) : (s.reply r).nk = s.nk := rfl
@[simp] theorem State.reply_stream (s : State) (r : Reply) : (s.reply r).stream = s.stream := rfl
@[simp] theorem State.reply_ibuf (s : State) (r : Reply) : (s.reply r).ibuf = s.ibuf := rfl
@[simp] theorem State.reply_ilen (s : State) (r : Reply) : (s.reply r).ilen = s.ilen := rfl
@[simp] theorem State.reply_obuf (s : State) (r : Reply) : (s.reply r).obuf = s.obuf := rfl
@[simp] theorem State.reply_olen (s : State) (r : Reply) : (s.reply r).olen = s.olen := rfl
@[simp] theorem State.reply_sin (s : State) (r : Reply) : (s.reply r).sin = s.sin := rfl
@[simp] theorem State.reply_sout (s : State) (r : Reply) : (s.reply r).sout = s.sout := rfl
@[simp] theorem State.reply_err (s : State) (r : Reply) : (s.reply r).err = s.err := rfl
@[simp] theorem State.reply_integ (s : State) (r : Reply) : (s.reply r).integ = s.integ := rfl
@[simp] theorem State.reply_attrbad (s : State) (r : Reply) : (s.reply r).attrbad = s.attrbad := rfl
@[simp] theorem State.reply_noBoundary (s : State) (r : Reply) : (s.reply r).noBoundary = s.noBoundary := rfl
@[simp] theorem State.reply_arg0 (s : State) (r : Reply) : (s.reply r).arg0 = s.arg0 := rfl
@[simp] theorem State.reply_arg1 (s : State) (r : Reply) : (s.reply r).arg1 = s.arg1 := rfl
@[simp] theorem State.reply_res (s : State) (r : Reply) : (s.reply r).res = s.res := rfl
@[simp] theorem State.reply_packsz (s : State) (r : Reply) : (s.reply r).packsz = s.packsz := rfl
@[simp] theorem State.reply_moves (s : State) (r : Reply) : (s.reply r).moves = s.moves := rfl
@[simp] theorem State.reply_replies (s : State) (r : Reply) : (s.reply r).replies = s.replies ++ [r] := rfl
@[simp] theorem State.reply_entropy (s : State) (r : Reply) : (s.reply r).entropy = s.entropy := rfl
@[simp] theorem State.reply_draws (s : State) (r : Reply) : (s.reply r).draws = s.draws := rfl

@[simp] theorem State.afterDraw_k (s : State) : s.afterDraw.k = s.k := by unfold State.afterDraw; split <;> rfl
@[simp] theorem State.afterDraw_kv (s : State) : s.afterDraw.kv = s.kv := by unfold State.afterDraw; split <;> rfl
@[simp] theorem State.afterDraw_nk (s : State) : s.afterDraw.nk = s.nk := by unfold State.afterDraw; split <;> rfl
@[simp] theorem State.afterDraw_stream (s : State) : s.afterDraw.stream = s.stream := by unfold State.afterDraw; split <;> rfl
@[simp] theorem State.afterDraw_ibuf (s : State) : s.afterDraw.ibuf = s.ibuf := by unfold State.afterDraw; split <;> rfl
@[simp] theorem State.afterDraw_ilen (s : State) : s.afterDraw.ilen = s.ilen := by unfold State.afterDraw; split <;> rfl
@[simp] theorem State.afterDraw_obuf (s : State) : s.afterDraw.obuf = s.obuf := by unfold State.afterDraw; split <;> rfl
@[simp] theorem State.afterDraw_olen (s : State) : s.afterDraw.olen = s.olen := by unfold State.afterDraw; split <;> rfl
@[simp] theorem State.afterDraw_sin (s : State) : s.afterDraw.sin = s.sin := by unfold State.afterDraw; split <;> rfl
@[simp] theorem State.afterDraw_sout (s : State) : s.afterDraw.sout = s.sout := by unfold State.afterDraw; split <;> rfl
@[simp] theorem State.afterDraw_err (s : State) : s.afterDraw.err = s.err := by unfold State.afterDraw; split <;> rfl
@[simp] theorem State.afterDraw_integ (s : State) : s.afterDraw.integ = s.integ := by unfold State.afterDraw; split <;> rfl
@[simp] theorem State.afterDraw_attrbad (s : State) : s.afterDraw.attrbad = s.attrbad := by unfold State.afterDraw; split <;> rfl
@[simp] theorem State.afterDraw_noBoundary (s : State) : s.afterDraw.noBoundary = s.noBoundary := by unfold State.afterDraw; split <;> rfl
@[simp] theorem State.afterDraw_arg0 (s : State) : s.afterDraw.arg0 = s.arg0 := by unfold State.afterDraw; split <;> rfl
@[simp] theorem State.afterDraw_arg1 (s : State) : s.afterDraw.arg1 = s.arg1 := by unfold State.afterDraw; split <;> rfl
@[simp] theorem State.afterDraw_res (s : State) : s.afterDraw.res = s.res := by unfold State.afterDraw; split <;> rfl
@[simp] theorem State.afterDraw_packsz (s : State) : s.afterDraw.packsz = s.packsz := by unfold State.afterDraw; split <;> rfl
@[simp] theorem State.afterDraw_moves (s : State) : s.afterDraw.moves = s.moves := by unfold State.afterDraw; split <;> rfl
@[simp] theorem State.afterDraw_replies (s : State) : s.afterDraw.replies = s.replies := by unfold State.afterDraw; split <;> rfl

/-- Raising an error ends the command with that error and nothing else changed. -/
@[simp] theorem State.raise_eq (s : State) (e : ErrCode) : s.raise e = .next { s with err := e } := rfl

/-- Completing ends the command with `STATUS.ERR` 0 and nothing else changed. -/
@[simp] theorem State.complete_eq (s : State) : s.complete = .next { s with err := .ok } := rfl

end Sys2Proof.Machine
end

