-- ==== Sys2Proof/Laws/Ops.lean ====
section
/-!
SUPPORT. What each shared operation of the commands can do, said once.
-/

namespace Sys2Proof.Machine

@[simp] theorem State.length_operand (s : State) : s.operand.length = s.ilen.toNat := by
  simp [State.operand]

theorem State.getD_operand (s : State) (j : Nat) (h : j < s.ilen.toNat) : s.operand.getD j 0 = s.ibuf.read j := by
  unfold State.operand
  rw [Memory.getD_readRange _ _ _ _ h, Nat.zero_add]

@[simp] theorem getElem_sliceBytes (n off : Nat) (l : List Byte) (i : Nat) (h : i < n) :
    (sliceBytes n off l)[i] = l.getD (off + i) 0 := by
  simp [sliceBytes]

@[simp] theorem getElem_xorBytes {n : Nat} (a b : Bytes n) (i : Nat) (h : i < n) :
    (xorBytes a b)[i] = a[i] ^^^ b[i] := by
  simp [xorBytes]

@[simp] theorem getElem_zeros (n i : Nat) (h : i < n) : (zeros n)[i] = 0 := by
  simp [zeros]

/-- A byte string of length `n` read back from its own list of bytes. -/
theorem sliceBytes_toList {n : Nat} (v : Bytes n) : sliceBytes n 0 v.toList = v := by
  ext i h
  simp [List.getD, h]

theorem State.slotKey?_eq_some {s : State} {sa : Slot} {key : Block} :
    s.slotKey? sa = some key ↔ s.kv[sa] = true ∧ s.k[sa] = key := by
  unfold State.slotKey?
  split <;> simp_all

theorem State.slotKey?_eq_none {s : State} {sa : Slot} : s.slotKey? sa = none ↔ s.kv[sa] = false := by
  unfold State.slotKey?
  split <;> simp_all

/-- Everything a command under a slot key can do: a wrong length, an invalid slot, or the output. -/
theorem slotCommand_cases (lenOk : BitVec 16 → Bool) (f : Block → List Byte → List Byte) (sa : Slot) (s : State) :
    (lenOk s.ilen = false ∧ slotCommand lenOk f sa s = .next { s with err := .badLen }) ∨
    (lenOk s.ilen = true ∧ s.kv[sa] = false ∧ slotCommand lenOk f sa s = .next { s with err := .keySlot }) ∨
    (lenOk s.ilen = true ∧ s.kv[sa] = true ∧
      slotCommand lenOk f sa s = .next { s.out (f s.k[sa] s.operand) with err := .ok }) := by
  unfold slotCommand
  cases hl : lenOk s.ilen
  · exact .inl ⟨rfl, rfl⟩
  · cases hv : s.kv[sa]
    · refine .inr (.inl ⟨rfl, rfl, ?_⟩)
      simp [State.slotKey?_eq_none.mpr hv]
    · refine .inr (.inr ⟨rfl, rfl, ?_⟩)
      simp [State.slotKey?_eq_some.mpr ⟨hv, rfl⟩]

/-- Reading `OBUF` after an output. -/
theorem State.read_out (s : State) (v : List Byte) (a : Nat) :
    (s.out v).obuf.read a = if a < v.length then v.getD a 0 else s.obuf.read a := by
  simp [Memory.read_writeRange]

/-- Everything the size rule of a read can answer (R196). -/
theorem readSpan_cases (L pos count : Nat) :
    (L ≤ pos + count ∧ readSpan L pos count = some (L - pos)) ∨
    (pos + count < L ∧ count < 16 ∧ readSpan L pos count = none) ∨
    (pos + count < L ∧ 16 ≤ count ∧ readSpan L pos count = some (count - count % 16)) := by
  unfold readSpan
  by_cases h : L ≤ pos + count
  · exact .inl ⟨h, by simp [h]⟩
  · by_cases h2 : count < 16
    · exact .inr (.inl ⟨by omega, h2, by simp [h, h2]⟩)
    · exact .inr (.inr ⟨by omega, by omega, by simp [h, h2]⟩)

/-- What a draw does to the state: only the entropy input moves on. -/
theorem State.afterDraw_cases (s : State) :
    (∃ r rest, s.entropy = r :: rest ∧ s.drawBytes = r ∧ s.afterDraw = { s with entropy := rest }) ∨
    (s.entropy = [] ∧ s.drawBytes = Config.entropy s.draws ∧ s.afterDraw = { s with draws := s.draws + 1 }) := by
  unfold State.afterDraw State.drawBytes
  cases h : s.entropy with
  | nil => exact .inr ⟨rfl, rfl, rfl⟩
  | cons r rest => exact .inl ⟨r, rest, rfl, rfl, rfl⟩

end Sys2Proof.Machine
end

