-- ==== Sys2Proof/Laws/PerInstr.lean ====
section
/-!
SUPPORT. Facts about every command as syntax, one lemma per constructor of `Instr`.
-/

namespace Sys2Proof.Laws

/-- The word of a command is legal (R94): its opcode is assigned and its unused fields are zero. -/
def EncodeLegal.Statement (i : Instr) : Prop := Word.legal (encode i) = true

theorem EncodeLegal.nop : EncodeLegal.Statement .nop := by unfold EncodeLegal.Statement; decide
theorem EncodeLegal.aesenc (sa : Slot) : EncodeLegal.Statement (.aesenc sa) := by
  unfold EncodeLegal.Statement; revert sa; decide
theorem EncodeLegal.aesdec (sa : Slot) : EncodeLegal.Statement (.aesdec sa) := by
  unfold EncodeLegal.Statement; revert sa; decide
theorem EncodeLegal.reset : EncodeLegal.Statement .reset := by unfold EncodeLegal.Statement; decide
theorem EncodeLegal.kload (sd : Slot) : EncodeLegal.Statement (.kload sd) := by
  unfold EncodeLegal.Statement; revert sd; decide
theorem EncodeLegal.kclear (sd : Slot) : EncodeLegal.Statement (.kclear sd) := by
  unfold EncodeLegal.Statement; revert sd; decide
theorem EncodeLegal.kwrap (sa : Slot) : EncodeLegal.Statement (.kwrap sa) := by
  unfold EncodeLegal.Statement; revert sa; decide
theorem EncodeLegal.kunwrap (sa : Slot) : EncodeLegal.Statement (.kunwrap sa) := by
  unfold EncodeLegal.Statement; revert sa; decide
theorem EncodeLegal.kunwrapk (sa sd : Slot) : EncodeLegal.Statement (.kunwrapk sa sd) := by
  unfold EncodeLegal.Statement; revert sa sd; decide +kernel
theorem EncodeLegal.cbcenc (sa : Slot) : EncodeLegal.Statement (.cbcenc sa) := by
  unfold EncodeLegal.Statement; revert sa; decide
theorem EncodeLegal.cbcdec (sa : Slot) : EncodeLegal.Statement (.cbcdec sa) := by
  unfold EncodeLegal.Statement; revert sa; decide
theorem EncodeLegal.attrenc : EncodeLegal.Statement .attrenc := by unfold EncodeLegal.Statement; decide
theorem EncodeLegal.attrdec : EncodeLegal.Statement .attrdec := by unfold EncodeLegal.Statement; decide
theorem EncodeLegal.nsplit : EncodeLegal.Statement .nsplit := by unfold EncodeLegal.Statement; decide
theorem EncodeLegal.nunwrap (sa : Slot) : EncodeLegal.Statement (.nunwrap sa) := by
  unfold EncodeLegal.Statement; revert sa; decide
theorem EncodeLegal.nmerge : EncodeLegal.Statement .nmerge := by unfold EncodeLegal.Statement; decide
theorem EncodeLegal.nread : EncodeLegal.Statement .nread := by unfold EncodeLegal.Statement; decide
theorem EncodeLegal.nclear : EncodeLegal.Statement .nclear := by unfold EncodeLegal.Statement; decide
theorem EncodeLegal.pwkdf (sd : Slot) : EncodeLegal.Statement (.pwkdf sd) := by
  unfold EncodeLegal.Statement; revert sd; decide
theorem EncodeLegal.sopene : EncodeLegal.Statement .sopene := by unfold EncodeLegal.Statement; decide
theorem EncodeLegal.sopend : EncodeLegal.Statement .sopend := by unfold EncodeLegal.Statement; decide
theorem EncodeLegal.sread : EncodeLegal.Statement .sread := by unfold EncodeLegal.Statement; decide
theorem EncodeLegal.sgetkey : EncodeLegal.Statement .sgetkey := by unfold EncodeLegal.Statement; decide
theorem EncodeLegal.sgetmac : EncodeLegal.Statement .sgetmac := by unfold EncodeLegal.Statement; decide
theorem EncodeLegal.sclose : EncodeLegal.Statement .sclose := by unfold EncodeLegal.Statement; decide
theorem EncodeLegal.sseek : EncodeLegal.Statement .sseek := by unfold EncodeLegal.Statement; decide
theorem EncodeLegal.swrite : EncodeLegal.Statement .swrite := by unfold EncodeLegal.Statement; decide
theorem EncodeLegal.bndnext : EncodeLegal.Statement .bndnext := by unfold EncodeLegal.Statement; decide
theorem EncodeLegal.packnext : EncodeLegal.Statement .packnext := by unfold EncodeLegal.Statement; decide

end Sys2Proof.Laws
end

