-- ==== Sys2Proof/Laws/Stream.lean ====
section
/-!
SUPPORT. The block step and its repetition (R198, R197): what they keep, how long their output is, how runs of steps compose,
and everything a read can end in.
-/

namespace Sys2Proof.Machine

/-- The fields of the stream a block step never changes (R198: it writes the two MACs and the counter only). -/
structure Stream.SameSetup (S T : Stream) : Prop where
  state : T.state = S.state
  mode : T.mode = S.mode
  key : T.key = S.key
  iv : T.iv = S.iv
  expmac : T.expmac = S.expmac
  len : T.len = S.len
  pos : T.pos = S.pos
  metamac : T.metamac = S.metamac

theorem Stream.SameSetup.trans {S T U : Stream} (h : S.SameSetup T) (g : T.SameSetup U) : S.SameSetup U :=
  ⟨g.state.trans h.state, g.mode.trans h.mode, g.key.trans h.key, g.iv.trans h.iv, g.expmac.trans h.expmac,
    g.len.trans h.len, g.pos.trans h.pos, g.metamac.trans h.metamac⟩

theorem Stream.startChunk_setup (S : Stream) (p : Nat) : S.SameSetup (S.startChunk p) := by
  unfold Stream.startChunk
  split <;> exact ⟨rfl, rfl, rfl, rfl, rfl, rfl, rfl, rfl⟩

@[simp] theorem Stream.startChunk_ctr (S : Stream) (p : Nat) : (S.startChunk p).ctr = S.ctr := by
  unfold Stream.startChunk
  split <;> rfl

theorem Stream.blockStep_setup (cfg : Config) (S : Stream) (p : Nat) (b : List Byte) :
    S.SameSetup (S.blockStep cfg p b).1 :=
  (S.startChunk_setup p).trans ⟨rfl, rfl, rfl, rfl, rfl, rfl, rfl, rfl⟩

/-- A block step counts one block (R195). -/
@[simp] theorem Stream.blockStep_ctr (cfg : Config) (S : Stream) (p : Nat) (b : List Byte) :
    (S.blockStep cfg p b).1.ctr = S.ctr + 1 := by
  simp [Stream.blockStep]

/-- The output of a block step depends on the key, the IV and the counter alone (R194, R198 (b) to (d)). -/
theorem Stream.blockStep_out (cfg : Config) (S : Stream) (p : Nat) (b : List Byte) :
    (S.blockStep cfg p b).2 = xorStream b (keystream S.key S.iv (S.ctr.toNat + cfg.ctrFirst)) := by
  have h := S.startChunk_setup p
  simp [Stream.blockStep, Stream.blockOut, h.key, h.iv]

@[simp] theorem length_xorStream (b : List Byte) (ks : Block) : (xorStream b ks).length = min b.length 16 := by
  simp [xorStream]

/-- `n` block steps keep the setup of the stream. -/
theorem Stream.blockSteps_setup (cfg : Config) (n : Nat) (S : Stream) (p : Nat) (x : List Byte) :
    S.SameSetup (Stream.blockSteps cfg n S p x).1 := by
  induction n generalizing S p x with
  | zero => exact ⟨rfl, rfl, rfl, rfl, rfl, rfl, rfl, rfl⟩
  | succ n ih => exact (S.blockStep_setup cfg p (x.take 16)).trans (ih _ _ _)

/-- `n` block steps count `n` blocks (R195). -/
theorem Stream.blockSteps_ctr (cfg : Config) (n : Nat) (S : Stream) (p : Nat) (x : List Byte) :
    (Stream.blockSteps cfg n S p x).1.ctr = S.ctr + BitVec.ofNat 64 n := by
  induction n generalizing S p x with
  | zero => simp [Stream.blockSteps]
  | succ n ih =>
    simp only [Stream.blockSteps, ih, Stream.blockStep_ctr]
    apply BitVec.eq_of_toNat_eq
    simp
    omega

/-- The output of `n` block steps over `x` is as long as the part of `x` they reach. -/
theorem Stream.length_blockSteps (cfg : Config) (n : Nat) (S : Stream) (p : Nat) (x : List Byte) :
    (Stream.blockSteps cfg n S p x).2.length = min x.length (16 * n) := by
  induction n generalizing S p x with
  | zero => simp [Stream.blockSteps]
  | succ n ih =>
    simp only [Stream.blockSteps, List.length_append, ih, Stream.blockStep_out, length_xorStream, List.length_take,
      List.length_drop]
    omega

/-- Runs of block steps compose: `m + n` steps are `m` steps and then `n` steps on what is left. -/
theorem Stream.blockSteps_add (cfg : Config) (m n : Nat) (S : Stream) (p : Nat) (x : List Byte) :
    Stream.blockSteps cfg (m + n) S p x =
      ((Stream.blockSteps cfg n (Stream.blockSteps cfg m S p x).1 (p + 16 * m) (x.drop (16 * m))).1,
       (Stream.blockSteps cfg m S p x).2 ++
        (Stream.blockSteps cfg n (Stream.blockSteps cfg m S p x).1 (p + 16 * m) (x.drop (16 * m))).2) := by
  induction m generalizing S p x with
  | zero => simp [Stream.blockSteps]
  | succ m ih =>
    rw [Nat.add_right_comm]
    simp only [Stream.blockSteps]
    rw [ih]
    have e1 : p + 16 + 16 * m = p + 16 * (m + 1) := by omega
    have e2 : (x.drop 16).drop (16 * m) = x.drop (16 * (m + 1)) := by rw [List.drop_drop]; congr 1; omega
    rw [e1, e2, List.append_assoc]

/-- Block steps look only at the bytes they reach. -/
theorem Stream.blockSteps_take (cfg : Config) (n : Nat) (S : Stream) (p : Nat) (x : List Byte) (j : Nat) (h : 16 * n ≤ j) :
    Stream.blockSteps cfg n S p (x.take j) = Stream.blockSteps cfg n S p x := by
  induction n generalizing S p x j with
  | zero => rfl
  | succ n ih =>
    have e : (x.take j).drop 16 = (x.drop 16).take (j - 16) := by rw [List.drop_take]
    simp only [Stream.blockSteps, List.take_take, Nat.min_eq_left (show 16 ≤ j by omega), e]
    rw [ih _ _ _ _ (by omega)]

/-- What consuming bytes keeps (R197): all of the setup but the position. -/
theorem Stream.consume_setup (cfg : Config) (S : Stream) (x : List Byte) :
    S.SameSetup { (S.consume cfg x).1 with pos := S.pos } := by
  have h := Stream.blockSteps_setup cfg ((x.length + 15) / 16) S S.pos.toNat x
  exact ⟨h.state, h.mode, h.key, h.iv, h.expmac, h.len, rfl, h.metamac⟩

@[simp] theorem Stream.consume_pos (cfg : Config) (S : Stream) (x : List Byte) :
    (S.consume cfg x).1.pos = BitVec.ofNat 64 (S.pos.toNat + x.length) := rfl

/-- Exactly as many bytes come out as go in (R197). -/
theorem Stream.length_consume (cfg : Config) (S : Stream) (x : List Byte) : (S.consume cfg x).2.length = x.length := by
  simp only [Stream.consume, Stream.length_blockSteps]
  omega

/-- Everything the end of a read can be (R197, R201, R202): more to come, the end, or the end with a failed check. -/
theorem State.endRead_cases (s : State) :
    (s.stream.pos ≠ s.stream.len ∧ s.endRead = .next { s with err := .ok }) ∨
    (s.stream.pos = s.stream.len ∧ s.stream.finalise.corrupt = false ∧
      s.endRead = .next { s with stream := s.stream.finalise, err := .ok }) ∨
    (s.stream.pos = s.stream.len ∧ s.stream.finalise.corrupt = true ∧
      s.endRead = .next { s with stream := s.stream.finalise, integ := true, err := .integrity }) := by
  unfold State.endRead
  by_cases h : s.stream.pos = s.stream.len
  · rw [if_pos h]
    cases hc : s.stream.finalise.corrupt
    · exact .inr (.inl ⟨h, rfl, by simp [hc]⟩)
    · exact .inr (.inr ⟨h, rfl, by simp [hc]⟩)
  · exact .inl ⟨h, by rw [if_neg h]; rfl⟩

/-- Everything a read command can do (R197, R203, R211). -/
theorem execSread_cases (s : State) :
    (s.stream.state = .closed ∧ execSread s = .next { s with err := .state }) ∨
    (s.stream.state = .done ∧ execSread s = .next { s with res := 0, err := .ok }) ∨
    (s.stream.state = .active ∧ readSpan s.stream.len.toNat s.stream.pos.toNat s.arg0.toNat = none ∧
      execSread s = .next { s with err := .readSize }) ∨
    (∃ n, s.stream.state = .active ∧ readSpan s.stream.len.toNat s.stream.pos.toNat s.arg0.toNat = some n ∧
      s.sin.length < n ∧ execSread s = .next { s with err := .underrun }) ∨
    (∃ n, s.stream.state = .active ∧ readSpan s.stream.len.toNat s.stream.pos.toNat s.arg0.toNat = some n ∧
      n ≤ s.sin.length ∧ execSread s = (s.readBytes n).endRead) := by
  unfold execSread
  cases h : s.stream.state with
  | closed => exact .inl ⟨rfl, rfl⟩
  | done => exact .inr (.inl ⟨rfl, rfl⟩)
  | active =>
    cases hr : readSpan s.stream.len.toNat s.stream.pos.toNat s.arg0.toNat with
    | none => exact .inr (.inr (.inl ⟨rfl, rfl, rfl⟩))
    | some n =>
      by_cases hl : s.sin.length < n
      · exact .inr (.inr (.inr (.inl ⟨n, rfl, rfl, hl, by simp [hl]⟩)))
      · exact .inr (.inr (.inr (.inr ⟨n, rfl, rfl, by omega, by simp [hl]⟩)))

end Sys2Proof.Machine
end

