-- ==== Sys2Proof/Tests/Slice0.lean ====
section
/-!
SUPPORT. The model's own tests: well-formedness smoke tests, decoding of words written out from the spec's encoding, one-step
checks against the vectors of 95_test_vectors.md, and for every statement with hypotheses a state that meets them.
-/

namespace Sys2Proof.Tests
open Sys2Proof.Machine

/-! ### Well-formedness: each check refuses an ill-formed term -/

theorem test_unassigned_opcode_is_not_legal : Word.legal 0x0300 = false := by decide
theorem test_nop_with_sd_is_not_legal : Word.legal 0x0001 = false := by decide
theorem test_reset_with_sa_is_not_legal : Word.legal 0x0F10 = false := by decide
theorem test_aesenc_with_sd_is_not_legal : Word.legal 0x0101 = false := by decide
theorem test_kload_with_sa_is_not_legal : Word.legal 0x1010 = false := by decide
theorem test_kunwrapk_uses_both_fields : Word.legal 0x22FF = true := by decide
theorem test_status_is_not_writable : (HostMove.writeReg 1 0).wellFormed = false := by decide
theorem test_register_11_does_not_exist :
    (HostMove.writeReg 11 0).wellFormed = false ∧ (HostMove.readReg 11).wellFormed = false := by decide
theorem test_ilen_value_must_fit : (HostMove.writeReg 5 65536).wellFormed = false := by decide
theorem test_cmd_is_not_readable : (HostMove.readReg 0).wellFormed = false := by decide
theorem test_ibuf_write_ends_in_the_buffer :
    (HostMove.writeIBUF 4095 [1, 2]).wellFormed = false ∧ (HostMove.writeIBUF 4095 [1]).wellFormed = true := by decide
theorem test_obuf_read_ends_in_the_buffer : (HostMove.readOBUF 4095 2).wellFormed = false := by decide
/-- One legal word for every value of the fields a row uses (R91, R94). -/
theorem test_legal_word_count :
    (opcodeTable.map fun r => match r.format with | .N => 1 | .A => 16 | .D => 16 | .AD => 256).sum = 434 := by decide

/-! ### Every constructor's word, from R93's table and R97, and its decoding -/

theorem test_decode_block_cipher :
    decode 0x0130 = .ok (.aesenc 3) ∧ decode 0x02F0 = .ok (.aesdec 15) := by decide
theorem test_decode_key_wrap_and_cbc :
    decode 0x2070 = .ok (.kwrap 7) ∧ decode 0x2180 = .ok (.kunwrap 8) ∧ decode 0x2201 = .ok (.kunwrapk 0 1) ∧
    decode 0x2210 = .ok (.kunwrapk 1 0) ∧ decode 0x2340 = .ok (.cbcenc 4) ∧ decode 0x2420 = .ok (.cbcdec 2) ∧
    decode 0x2800 = .ok .attrenc ∧ decode 0x2900 = .ok .attrdec := by decide
theorem test_decode_key_hierarchy :
    decode 0x100F = .ok (.kload 15) ∧ decode 0x1109 = .ok (.kclear 9) ∧ decode 0x3000 = .ok .nsplit ∧
    decode 0x3150 = .ok (.nunwrap 5) ∧ decode 0x3200 = .ok .nmerge ∧ decode 0x3300 = .ok .nread ∧
    decode 0x3400 = .ok .nclear ∧ decode 0x3806 = .ok (.pwkdf 6) := by decide
theorem test_decode_stream :
    decode 0x4000 = .ok .sopene ∧ decode 0x4100 = .ok .sopend ∧ decode 0x4200 = .ok .sread ∧
    decode 0x4300 = .ok .sgetkey ∧ decode 0x4400 = .ok .sgetmac ∧ decode 0x4500 = .ok .sclose ∧
    decode 0x4600 = .ok .sseek ∧ decode 0x4700 = .ok .swrite := by decide
theorem test_decode_boundaries : decode 0x5000 = .ok .bndnext ∧ decode 0x5100 = .ok .packnext := by decide
theorem test_decode_system : decode 0x0000 = .ok .nop ∧ decode 0x0F00 = .ok .reset := by decide
/-- The illegal words of V30-1. -/
theorem test_decode_illegal :
    decode 0x0001 = .error .nonzeroUnusedField ∧ decode 0x0F01 = .error .nonzeroUnusedField ∧
    decode 0x4201 = .error .nonzeroUnusedField ∧ decode 0x1010 = .error .nonzeroUnusedField ∧
    decode 0x5200 = .error .unassignedOpcode ∧ decode 0xFFFF = .error .unassignedOpcode := by decide
theorem test_encode_both_slots : encode (.kunwrapk 10 3) = 0x22A3 ∧ encode (.pwkdf 6) = 0x3806 := by decide
theorem test_decodeTableWord : decodeTableWord 16 0x3150 = some (.nunwrap 5) ∧ decodeTableWord 16 0x0300 = none := by decide

/-! ### Helpers: bytes from a hexadecimal number, a state with an operand -/

/-- The `n` bytes of a number, most significant first, so that `hex n 0x…` reads as the spec's hex strings. -/
def hex (n v : Nat) : List Byte := (List.range n).map fun i => BitVec.ofNat 8 (v / 256 ^ (n - 1 - i))
def hexBytes (n v : Nat) : Bytes n := Vector.ofFn fun i => BitVec.ofNat 8 (v / 256 ^ (n - 1 - i.val))

/-- The vectors' key and IV. -/
def vk : Block := hexBytes 16 0x000102030405060708090a0b0c0d0e0f
def vv : Bytes 8 := hexBytes 8 0x1011121314151617

/-- `s` with `IBUF[0..|v|) = v` and `ILEN = |v|`. -/
def put (s : State) (v : List Byte) : State :=
  { s with ibuf := Memory.writeRange [] 0 v, ilen := BitVec.ofNat 16 v.length }

/-- After reset, with the vectors' key in slot 0. -/
def keyed : State := State.reset.setSlot 0 vk

/-- After reset, with a file node. -/
def filed : State := State.reset.setNode { state := .file, key := vk, iv := vv, mac := hexBytes 8 0x53429a33ca62558c }

/-- After reset, with an open stream under the vectors' key and IV, and input waiting. -/
def streaming (mode : StreamMode) (expmac : Bytes 8) (len : BitVec 64) (input : List Byte) : State :=
  { State.reset with stream := Stream.fresh mode vk vv expmac len, sin := input }

/-- The state after, if there is one. -/
def after (r : Result) : Option State :=
  match r with
  | .next t => some t
  | .fault _ => none
  | .refused _ => none

/-- The error code and `OBUF[0..OLEN)` after a command. -/
def answer (r : Result) : Option (ErrCode × List Byte) :=
  (after r).map fun t => (t.err, t.obuf.readRange 0 t.olen.toNat)

theorem holds_put (s : State) (v : List Byte) (h : v.length < 65536) : (put s v).holds v := by
  refine ⟨?_, fun j hj => ?_⟩
  · simpa [put] using h
  · simp [put, Memory.read_writeRange, hj]

/-! ### One step against the vectors -/

/-- V40-6. -/
theorem test_aesenc_fips :
    answer (exec (.aesenc 0) (put keyed (hex 16 0x00112233445566778899aabbccddeeff))) =
      some (.ok, hex 16 0x69c4e0d86a7b0430d8cdb78070b4c55a) := by decide +kernel
/-- V40-6. -/
theorem test_aesdec_fips :
    answer (exec (.aesdec 0) (put keyed (hex 16 0x69c4e0d86a7b0430d8cdb78070b4c55a))) =
      some (.ok, hex 16 0x00112233445566778899aabbccddeeff) := by decide +kernel
/-- V40-6: the length is checked before the slot. -/
theorem test_aesenc_length_first :
    answer (exec (.aesenc 3) (put keyed (hex 15 1))) = some (.badLen, []) ∧
    answer (exec (.aesenc 3) (put keyed (hex 16 1))) = some (.keySlot, []) := by decide
/-- V41-1, second row: no chaining. -/
theorem test_kwrap_two_blocks :
    answer (exec (.kwrap 0) (put keyed (hex 32 0x00112233445566778899aabbccddeeffffeeddccbbaa99887766554433221100))) =
      some (.ok, hex 32 0x69c4e0d86a7b0430d8cdb78070b4c55a1b872378795f4ffd772855fc87ca964d) := by decide +kernel
theorem test_kunwrap_length : answer (exec (.kunwrap 0) (put keyed (hex 17 1))) = some (.badLen, []) := by decide
/-- V41-4: `SA = SD`. -/
theorem test_kunwrapk_onto_itself :
    (after (exec (.kunwrapk 0 0) (put keyed (hex 16 0x07feef74e1d5036e900eee118e949293)))).map (fun t => t.k[0]) =
      some (hexBytes 16 0x101112131415161718191a1b1c1d1e1f) := by decide +kernel
/-- V41-2, first row: the second block differs from `KWRAP`'s. -/
theorem test_cbcenc_two_blocks :
    answer (exec (.cbcenc 0) (put keyed (hex 32 0x00112233445566778899aabbccddeeffffeeddccbbaa99887766554433221100))) =
      some (.ok, hex 32 0x69c4e0d86a7b0430d8cdb78070b4c55a6af6d9cf51342e31bbab36aa90a22194) := by decide +kernel
/-- V41-2, fourth row. -/
theorem test_cbcdec_two_blocks :
    answer (exec (.cbcdec 0) (put keyed (hex 32 0x00112233445566778899aabbccddeeffffeeddccbbaa99887766554433221100))) =
      some (.ok, hex 32 0x762a5ab50929189cefdb99434790aad8b9663fbbb18e56e59bfa83de8a1306b8) := by decide +kernel
/-- V41-3, second row: a record that needs no padding. -/
theorem test_attrenc_twelve_bytes :
    answer (exec .attrenc (put { filed with nk := { filed.nk with key := hexBytes 16 0x0f0e0d0c0b0a09080706050403020100 } }
        (hex 12 0x7b226e223a2261626364227d))) =
      some (.ok, hex 16 0x4457a20d5fcc1f76e75cf2ed50fba7f1) := by decide +kernel
/-- V41-3, third row: the empty record. -/
theorem test_attrdec_empty_record :
    (after (exec .attrdec (put { (filed.setAttrbad true) with
        olen := 7, nk := { filed.nk with key := hexBytes 16 0x0f0e0d0c0b0a09080706050403020100 } } (hex 16 0xe26ced944e8f13ab418f3a5f3ec6e347)))).map
      (fun t => (t.err, t.attrbad, t.olen)) = some (.ok, false, 0) := by decide +kernel
/-- V41-3: a null node. -/
theorem test_attrdec_null_node :
    (after (exec .attrdec State.reset)).map (fun t => (t.err.code, t.attrbad)) = some (8, true) := by decide
/-- V44-5. -/
theorem test_kload_sets_kvalid :
    (after (exec (.kload 15) (put State.reset (hex 16 1)))).map State.kvalid = some 0x8000 := by decide
theorem test_kclear_clears_kvalid : (after (exec (.kclear 0) keyed)).map State.kvalid = some 0 := by decide
/-- V44-2 through `NSPLIT`. -/
theorem test_nsplit_file :
    (after (exec .nsplit (put State.reset (hex 32 0xffeeddccbbaa998877665544332211000123456789abcdeffedcba9876543210)))).map
      (fun t => t.nk) = some { state := .file, key := hexBytes 16 0xfecd98ab3201546789baefdc45762310,
                               iv := hexBytes 8 0x0123456789abcdef, mac := hexBytes 8 0xfedcba9876543210 } := by decide
/-- V44-4: a folder key. -/
theorem test_nunwrap_folder :
    (after (exec (.nunwrap 0) (put keyed (hex 16 0x5e18d1fef61d087ec0a33ed734a7918f)))).map
      (fun t => (t.nk.key, t.status)) = some (hexBytes 16 0xa0a1a2a3a4a5a6a7a8a9aaabacadaeaf, 0x1000) := by decide +kernel
/-- V44-4: an invalid slot clears `NK`. -/
theorem test_nunwrap_invalid_slot :
    (after (exec (.nunwrap 5) (put filed (hex 16 1)))).map (fun t => (t.nk, t.status)) =
      some (NodeKey.null, 7) := by decide
/-- V44-3. -/
theorem test_nmerge_vector :
    answer (exec .nmerge (put State.reset (hex 32 0x000102030405060708090a0b0c0d0e0f1011121314151617148c5a734d3570e6))) =
      some (.ok, hex 32 0x10101010101010101c85507841387ee91011121314151617148c5a734d3570e6) := by decide
theorem test_nread_file :
    answer (exec .nread filed) =
      some (.ok, hex 32 0x000102030405060708090a0b0c0d0e0f101112131415161753429a33ca62558c) := by decide
theorem test_nclear : (after (exec .nclear filed)).map (fun t => t.nk.state) = some .null := by decide
/-- V44-6 with one round over one chunk, of the function `PWKDF` applies to its open parameters. -/
theorem test_pwkdf_one_round :
    pwkdf { params with kdfRounds := 1, kdfSeed := hexBytes 16 0x93c467e37db0c7a4d1be3f810152cb56 }
      (hex 8 0x70617373776f7264) = hexBytes 16 0x9b6f81fb54a4f2b4718701fa67685f78 := by decide +kernel
theorem test_pwkdf_empty : answer (exec (.pwkdf 0) State.reset) = some (.badLen, []) := by decide
/-- R192: bytes 0 to 15 of the draw are the key, 16 to 23 the IV. -/
theorem test_sopene_draws :
    (after (exec .sopene { State.reset with
        arg0 := 1, entropy := [hexBytes 24 0x000102030405060708090a0b0c0d0e0f1011121314151617] })).map
      (fun t => (t.stream.key, t.stream.iv, t.entropy, t.status)) = some (vk, vv, [], 0x100) := by decide
theorem test_sopend_mode : (after (exec .sopend { filed with arg0 := 40 })).map State.status = some 0x2500 := by decide
/-- V42-3: one byte, then done. -/
theorem test_sread_one_byte :
    (after (exec .sread { streaming .enc (zeros 8) 1 [0] with arg0 := 1 })).map
      (fun t => (t.sout, t.stream.metamac, t.res, t.status)) =
      some ([0x8d], hexBytes 8 0x53429a33ca62558c, 1, 0x200) := by decide +kernel
/-- V42-3 decrypted under a wrong expected MAC: the byte is delivered and the integrity error raised. -/
theorem test_sread_wrong_mac :
    (after (exec .sread { streaming .dec (hexBytes 8 0x53429a33ca62558d) 1 [0x8d] with arg0 := 1 })).map
      (fun t => (t.sout, t.status)) = some ([0], 0x10609) := by decide +kernel
theorem test_sgetkey : answer (exec .sgetkey (streaming .enc (zeros 8) 1 [])) = some (.ok, vk.toList ++ vv.toList) := by decide
theorem test_sgetmac_not_ready : answer (exec .sgetmac (streaming .enc (zeros 8) 1 [])) = some (.notReady, []) := by decide
theorem test_sclose : (after (exec .sclose (streaming .enc (zeros 8) 1 [5]))).map (fun t => (t.sin, t.status)) =
    some ([], 0) := by decide
theorem test_sseek_fails : (after (exec .sseek State.reset)).map State.status = some 2 := by decide
theorem test_swrite_fails : (after (exec .swrite State.reset)).map State.status = some 2 := by decide
/-- V43-3. -/
theorem test_bndnext :
    (after (exec .bndnext { State.reset with arg0 := 10000000, arg1 := 4718592 })).map (fun t => (t.res, t.noBoundary)) =
      some (5767168, false) ∧
    (after (exec .bndnext { State.reset with arg0 := 131072 })).map (fun t => (t.res, t.noBoundary)) =
      some (131072, true) := by decide
/-- V43-8. -/
theorem test_packnext :
    (after (exec .packnext { State.reset with arg0 := 2000000, arg1 := 1310720 })).map (fun t => t.res) = some 689280 ∧
    (after (exec .packnext { State.reset with arg0 := 2000000, arg1 := 100 })).map (fun t => t.err) = some .badLen := by decide
/-- V45-1. -/
theorem test_nop_clears_err : (after (exec .nop { State.reset with err := .unsupported, integ := true })).map State.status =
    some 0x10000 := by decide
theorem test_reset_restores_packsz :
    (after (exec .reset { keyed with packsz := 5, sout := [1] })).map (fun t => (t.packsz, t.kvalid, t.sout)) =
      some (1048576, 0, []) := by decide

/-! ### The host's moves, and the function vectors -/

theorem test_withFetchWord_runs_the_word :
    (after (step (State.reset.withFetchWord 16 0x4600))).map (fun t => (t.err, t.moves)) = some (.unsupported, []) := by decide
theorem test_read_past_olen_is_refused :
    step { State.reset with moves := [.readOBUF 0 1] } = .refused .obufOutOfRange := by rfl
theorem test_pop_returns_the_head :
    (after (step { State.reset with moves := [.popSOUT 2], sout := [7, 8, 9] })).map (fun t => (t.sout, t.replies)) =
      some ([9], [.bytes [7, 8]]) := by decide
/-- V40-1. -/
theorem test_field_arithmetic : gmul 0x57 0x83 = 0xC1 ∧ gmul 0x57 0x13 = 0xFE := by decide
/-- V43-1, V43-2. -/
theorem test_boundaries :
    boundaries 131072 = [0] ∧ boundaries 131073 = [0, 131072] ∧
    boundaries 2000000 = [0, 131072, 393216, 786432, 1310720, 1966080] ∧ isBoundary 10000000 5242880 = false := by decide
/-- V43-4, V43-6. -/
theorem test_mac_functions :
    macAcc (macReset vv) (hex 16 0x00112233445566778899aabbccddeeff) = hexBytes 16 0x10003020504070609888b8a8d8c8f8e8 ∧
    macAcc (hexBytes 16 0x10003020504070609888b8a8d8c8f8e8) (hex 4 0xdeadbeef) =
      hexBytes 16 0xcead8ecf504070609888b8a8d8c8f8e8 ∧
    metamac vk = hexBytes 8 0x0404040404040404 := by decide
/-- V43-7, fourth row. -/
theorem test_fragments : fragments 2000000 300000 9 0 = [393216, 393216, 524288, 655360, 33920] := by decide

/-! ### Witnesses: for each statement with hypotheses, a state and operands that meet them -/

theorem witness_DecodeAndEncodeAgree : decode 0x22F1 = .ok (.kunwrapk 15 1) := by decide
theorem witness_IllegalWordsRaiseIllegalOnly :
    decode 0x0300 = .error .unassignedOpcode ∧ decode 0x1010 = .error .nonzeroUnusedField := by decide
theorem witness_StepRunsTheDecodedCommand :
    (State.reset.withFetchWord 16 0x0130).moves = [.writeReg 0 (0x0130 : Word).toNat] ∧
    decode 0x0130 = .ok (.aesenc 3) := by decide
theorem witness_StepStopsOnlyOnADisallowedMove :
    State.reset.moves = [] ∧ allowedMove (.readOBUF 0 1) State.reset = false ∧
    allowedMove (.readOBUF 0 0) State.reset = true := by decide
/-- One failing command for each case; for `SREAD` it is `test_sread_wrong_mac`. -/
theorem witness_FailingCommandChangesOnlyErr :
    ((after (exec (.nunwrap 0) (put filed (hex 16 1)))).map fun t => t.err) = some .keySlot ∧
    ((after (exec .attrdec State.reset)).map fun t => t.err) = some .keyAccess ∧
    ((after (exec .sseek State.reset)).map fun t => t.err) = some .unsupported := by decide
/-- Commands outside every table of writers complete from a state in which everything they must not touch is set. -/
theorem witness_ChangeOnlyByTheirWriters :
    (after (exec .nread filed)).isSome ∧ Instr.writesSlots .nread = false ∧ Instr.writesNode .nread = false ∧
    Instr.writesStream .nread = false ∧ Instr.writesRes .nread = false ∧ Instr.writesInteg .nread = false ∧
    Instr.writesAttrbad .nread = false ∧ Instr.writesNone .nread = false ∧
    (after (exec .sclose filed)).isSome ∧ Instr.writesOutput .sclose = false := by decide
/-- An open stream with input has the invariant, and the pending `SREAD` gives a next state. -/
theorem witness_StepKeepsTheInvariant :
    State.Inv { streaming .enc (zeros 8) 40 [1, 2, 3] with moves := [.writeReg 0 0x4200] } ∧
    (after (step { streaming .enc (zeros 8) 40 [1, 2, 3] with moves := [.writeReg 0 0x4200] })).isSome := by decide
theorem witness_SboxTableIsTheFieldFormula : gmul 0x53 0xCA = 1 := by decide
theorem witness_BlockCommandsOutputTheCipher : (put keyed vk.toList).holds vk.toList ∧ (put keyed vk.toList).kv[0] = true :=
  ⟨holds_put _ _ (by decide), by decide⟩
theorem witness_KeyWrapCommandsTransformEachBlock :
    (put keyed (vk.toList ++ vk.toList)).holds (vk.toList ++ vk.toList) ∧
    (put keyed (vk.toList ++ vk.toList)).kv[0] = true :=
  ⟨holds_put _ _ (by decide), by decide⟩
theorem length_blockBytes (ds : List Block) : (blockBytes ds).length = 16 * ds.length := by
  induction ds with
  | nil => rfl
  | cons d ds ih => simp [blockBytes] at ih ⊢; omega
theorem witness_CbcCommandsChainTheBlocks :
    (put keyed (blockBytes [vk])).holds (blockBytes [vk]) ∧
    (put keyed (blockBytes (List.replicate 256 vk))).holds (blockBytes (List.replicate 256 vk)) ∧ keyed.kv[0] = true :=
  ⟨holds_put _ _ (by decide), holds_put _ _ (by rw [length_blockBytes, List.length_replicate]; decide), by decide⟩
/-- A length for each error clause of the commands under a slot key, with an invalid slot. -/
theorem witness_errors_of_slot_commands :
    (put State.reset (hex 15 1)).ilen ≠ 16 ∧ (put State.reset (hex 15 1)).ilen ≠ 32 ∧ State.reset.ilen = 0 ∧
    (put State.reset (hex 17 1)).ilen.toNat % 16 ≠ 0 ∧ 4096 < ({ State.reset with ilen := 4112 }).ilen.toNat ∧
    State.reset.kv[0] = false ∧ (put State.reset (hex 16 1)).ilen = 16 ∧ (put State.reset (hex 32 1)).ilen = 32 ∧
    ({ State.reset with ilen := 4096 }).ilen.toNat ≤ 4096 := by decide
theorem witness_KunwrapkFillsTheDestinationSlot : (put keyed vk.toList).holds vk.toList ∧ (put keyed vk.toList).kv[0] = true :=
  ⟨holds_put _ _ (by decide), by decide⟩
theorem witness_UnwrapInvertsWrapAndCbc :
    (hex 16 1).length = 16 ∧ (hex 32 1).length = 32 ∧ (hex 48 1).length % 16 = 0 := by decide
theorem witness_AttrencEncryptsThePackedRecord :
    (put filed []).nk.state ≠ .null ∧ (put filed []).holds [] ∧
    (put filed (List.replicate 4092 7)).holds (List.replicate 4092 7) ∧
    4092 < ({ filed with ilen := 4093 }).ilen.toNat ∧ State.reset.ilen.toNat ≤ 4092 ∧ State.reset.nk.state = .null :=
  ⟨by decide, holds_put _ _ (by decide), holds_put _ _ (by rw [List.length_replicate]; decide), by decide, by decide, by decide⟩
theorem length_cbcEncFrom (k : Block) (m : Nat) (prev : Block) (d : List Byte) : (cbcEncFrom k m prev d).length = 16 * m := by
  induction m generalizing prev d with
  | zero => rfl
  | succ m ih => simp [cbcEncFrom, ih]; omega
/-- The empty record, and one padded by more than a block. -/
theorem witness_AttrdecRecoversThePackedRecord :
    (put filed (cbcEnc vk (attrMagic ++ [] ++ List.replicate 12 0))).holds
      (cbcEnc filed.nk.key ([0x4D, 0x45, 0x47, 0x41] ++ [] ++ List.replicate 12 0)) ∧
    (put filed (cbcEnc vk (attrMagic ++ [5] ++ List.replicate 27 0))).holds
      (cbcEnc filed.nk.key ([0x4D, 0x45, 0x47, 0x41] ++ [5] ++ List.replicate 27 0)) ∧
    ([5] : List Byte).getLast? ≠ some 0 ∧ filed.nk.state ≠ .null :=
  ⟨holds_put _ _ (by rw [cbcEnc, length_cbcEncFrom]; decide), holds_put _ _ (by rw [cbcEnc, length_cbcEncFrom]; decide), by decide,
    by decide⟩
/-- V41-3's bad blob `0^16`, and a length for each other clause. -/
theorem witness_AttrdecToleratesABadBlob :
    filed.nk.state ≠ .null ∧ (∀ j : Fin 16, filed.ibuf.read j = (zeros 16)[j]) ∧ filed.ilen = 0 ∧
    ({ filed with ilen := 20 }).ilen.toNat % 16 ≠ 0 ∧ 4096 < ({ filed with ilen := 4112 }).ilen.toNat ∧
    (aesDec (hexBytes 16 0x0f0e0d0c0b0a09080706050403020100) (zeros 16)).toList.take 4 ≠
      ([0x4D, 0x45, 0x47, 0x41] : List Byte) := by decide +kernel
theorem witness_SlotsAreLoadedAndCleared : (put State.reset vk.toList).holds vk.toList := holds_put _ _ (by decide)
theorem witness_PwkdfDerivesTheSlotKey :
    blockBytes [hexBytes 16 (7 * 256 ^ 15)] = [7] ++ List.replicate 15 0 ∧ (put State.reset [7]).holds [7] ∧
    blockBytes (List.replicate 256 vk) = blockBytes (List.replicate 256 vk) ++ List.replicate 0 0 ∧
    (put State.reset (blockBytes (List.replicate 256 vk))).holds (blockBytes (List.replicate 256 vk)) ∧
    State.reset.ilen = 0 ∧ 4096 < ({ State.reset with ilen := 4097 }).ilen.toNat :=
  ⟨by decide, holds_put _ _ (by decide), (List.append_nil _).symm, holds_put _ _ (by rw [length_blockBytes, List.length_replicate]; decide), by decide, by decide⟩
theorem witness_NsplitSetsTheNodeKey :
    (put State.reset (hexBytes 32 1).toList).holds (hexBytes 32 1).toList ∧ (put State.reset vk.toList).holds vk.toList :=
  ⟨holds_put _ _ (by decide), holds_put _ _ (by decide)⟩
theorem witness_NunwrapUnwrapsAndSplits :
    (put keyed (vk.toList ++ vk.toList)).holds (vk.toList ++ vk.toList) ∧ (put keyed vk.toList).holds vk.toList ∧
    keyed.kv[0] = true ∧ keyed.kv[1] = false ∧ (put keyed vk.toList).ilen = 16 :=
  ⟨holds_put _ _ (by decide), holds_put _ _ (by decide), by decide, by decide, by decide⟩
theorem witness_NmergeBuildsTheFileKey :
    (put State.reset (vk.toList ++ vv.toList ++ vv.toList)).holds (vk.toList ++ vv.toList ++ vv.toList) ∧
    State.reset.ilen ≠ 32 := ⟨holds_put _ _ (by decide), by decide⟩
theorem witness_NodeIsReadAndCleared :
    filed.nk.state = .file ∧ State.reset.nk.state = .null ∧
    ({ filed with nk := { filed.nk with state := .folder } }).nk.state = .folder := by decide
theorem witness_ReadMergeSplitRestoresTheNode :
    ∃ s1, exec .nread filed = .next s1 ∧
      (put keyed (s1.obuf.readRange 0 s1.olen.toNat)).holds (s1.obuf.readRange 0 s1.olen.toNat) ∧
      ∃ u1, exec .nmerge (put keyed (s1.obuf.readRange 0 s1.olen.toNat)) = .next u1 ∧
        (put State.reset (u1.obuf.readRange 0 u1.olen.toNat)).holds (u1.obuf.readRange 0 u1.olen.toNat) :=
  ⟨_, rfl, holds_put _ _ (by rw [Memory.length_readRange]; exact BitVec.isLt _), _, rfl,
    holds_put _ _ (by rw [Memory.length_readRange]; exact BitVec.isLt _)⟩
theorem witness_NonceIsIvThenBigEndianCounter :
    be64 0 = zeros 8 ∧ be64 (2 ^ 64 - 1) = hexBytes 8 0xffffffffffffffff ∧ be64 0x0102 = hexBytes 8 0x0102 := by decide
theorem witness_MacFunctionsFollowTheirFormulas :
    ∀ i : Fin 16, (xorBytes vk (macReset vv))[i] = vk[i] ^^^ (macReset vv)[i] := by decide
/-- Length 1 and the greatest accepted length, with a draw listed. -/
theorem witness_SopeneOpensAFreshStream :
    State.reset.stream.state = .closed ∧ 1 ≤ (1 : BitVec 64).toNat ∧ (0x7FFFFFFFFFFFFFFF : BitVec 64).toNat < 2 ^ 63 ∧
    (after (exec .sopene { State.reset with arg0 := 0x7FFFFFFFFFFFFFFF, entropy := [zeros 24] })).map (fun t => t.err) =
      some .ok := by decide
theorem witness_SopendOpensTheNodesStream :
    filed.stream.state = .closed ∧ filed.nk.state = .file ∧
    (after (exec .sopend { filed with arg0 := 0x7FFFFFFFFFFFFFFF })).map (fun t => t.err) = some .ok ∧
    (after (exec .sopend { filed with arg0 := 1 })).map (fun t => t.err) = some .ok := by decide
theorem witness_errors_of_opening :
    (streaming .enc (zeros 8) 1 []).stream.state ≠ .closed ∧ State.reset.stream.state = .closed ∧ State.reset.arg0 = 0 ∧
    2 ^ 63 ≤ (0x8000000000000000 : BitVec 64).toNat ∧ keyed.nk.state ≠ .file := by decide
/-- A last read at its least count, and a read of one block that does not reach the end. -/
theorem witness_SreadTransformsTheBytes :
    State.Inv { streaming .enc (zeros 8) 16 (hex 16 7) with arg0 := 16 } ∧
    State.Inv { streaming .dec vv 40 (hex 16 7) with arg0 := 16 } ∧
    (streaming .dec vv 40 (hex 16 7)).stream.state = .active ∧
    readSpan 16 0 16 = some 16 ∧ readSpan 40 0 16 = some 16 ∧ (hex 16 7).length = 16 :=
  ⟨by decide, by decide, by decide, by decide, by decide, by decide⟩
theorem witness_SreadOtherwiseLeavesTheStream :
    State.reset.stream.state = .closed ∧
    (after (exec .sread { streaming .enc (zeros 8) 16 [] with arg0 := 15 })).map (fun t => t.err) = some .readSize ∧
    (after (exec .sread { streaming .enc (zeros 8) 17 (hex 15 7) with arg0 := 16 })).map (fun t => t.err) =
      some .underrun ∧
    (after (exec .sread { streaming .enc (zeros 8) 16 (hex 15 7) with arg0 := 16 })).map (fun t => t.err) =
      some .underrun ∧
    (after (exec .sread { streaming .enc (zeros 8) 16 [] with
        arg0 := 0, stream := { Stream.fresh .enc vk vv (zeros 8) 16 with state := .done, pos := 16 } })).map
      (fun t => (t.res, t.err)) = some (0, .ok) := by decide
/-- A read of 16 bytes with 15 waiting, and one more pushed. -/
theorem witness_UnderrunChangesNothingAndIsRetried :
    (streaming .enc (zeros 8) 40 (hex 15 7)).stream.state = .active ∧ (hex 15 7).length < 16 ∧
    16 ≤ (hex 15 7 ++ [1]).length ∧ readSpan 40 0 31 = some 16 := by decide
/-- Opening, the read that ends the stream, and closing each take place. -/
theorem witness_StreamLifeCycle :
    (after (exec .sopend { filed with arg0 := 1 })).map (fun t => t.stream.state) = some .active ∧
    (after (exec .sread { streaming .enc (zeros 8) 1 [0] with arg0 := 1 })).map (fun t => t.stream.state) = some .done ∧
    (after (exec .sclose (streaming .enc (zeros 8) 1 []))).map (fun t => t.stream.state) = some .closed := by decide +kernel
/-- The read that raises the integrity error: 9 in the low byte of `STATUS`. -/
theorem witness_IntegrityIsRaisedOnlyAtTheEnd :
    (after (exec .sread { streaming .dec (hexBytes 8 0x53429a33ca62558d) 1 [0x8d] with arg0 := 1 })).map
      (fun t => (t.sout, t.status)) = some ([0], 0x10609) := test_sread_wrong_mac
/-- Two reads of a block each of a stream of 100 bytes. -/
theorem witness_TwoReadsEqualOneRead :
    let s := streaming .enc (zeros 8) 100 (hex 48 7)
    ∃ t1 t2, exec .sread { s with arg0 := 17 } = .next t1 ∧ t1.err = .ok ∧ t1.stream.state = .active ∧
      exec .sread { t1 with arg0 := 16 } = .next t2 ∧ t2.err = .ok ∧ (32 : BitVec 64).toNat = t1.res.toNat + t2.res.toNat :=
  ⟨_, _, rfl, rfl, rfl, rfl, rfl, rfl⟩
/-- Three counts that reach the end of a stream of 40 bytes, and a fourth read at its end. -/
theorem witness_ReadSizesDoNotMatter :
    State.Inv (streaming .enc (zeros 8) 40 (hex 48 7)) ∧
    ((readSequence [20, 16, 100, 1] (streaming .enc (zeros 8) 40 (hex 48 7))).map fun t => t.stream.pos) = some 40 :=
  ⟨by decide, by decide +kernel⟩
theorem witness_DecryptingWhatWasEncryptedRestoresIt :
    State.reset.stream.state = .closed ∧ ({ State.reset with arg0 := 1 }).arg0.toNat = ([5] : List Byte).length ∧
    1 ≤ ([5] : List Byte).length ∧ ([5] : List Byte).length ≤ (1 : BitVec 64).toNat := by decide
/-- One byte, and the greatest length. -/
theorem witness_MetaMacIsTheMacOfThePlaintext :
    (streaming .dec vv 1 [0]).stream = Stream.fresh .dec vk vv vv 1 ∧ (streaming .dec vv 1 [0]).sin.length = 1 ∧
    (List.replicate (2 ^ 63 - 1) (0 : Byte)).length = (0x7FFFFFFFFFFFFFFF : BitVec 64).toNat ∧
    (streaming .dec vv 1 [0]).sout = [] := ⟨rfl, rfl, by rw [List.length_replicate]; rfl, rfl⟩
theorem witness_StreamResultsAreReadOut :
    (streaming .enc (zeros 8) 1 []).stream.state = .active ∧ (streaming .enc (zeros 8) 1 []).stream.mode = .enc ∧
    (streaming .dec vv 1 []).stream.mode = .dec ∧ State.reset.stream.state = .closed ∧
    ({ Stream.fresh .enc vk vv (zeros 8) 1 with state := .done, pos := 1 }).state = .done := by decide
theorem witness_BoundaryTestMatchesTheSequence :
    boundaries 1 = [0] ∧ isBoundary 1 0 = true ∧ isBoundary 131073 131072 = true := by decide
/-- The least and the greatest accepted length, and the lengths next to them. -/
theorem witness_BndnextGivesTheLeastBoundaryAbove :
    (after (exec .bndnext { State.reset with arg0 := 1 })).map (fun t => t.err) = some .ok ∧
    (after (exec .bndnext { State.reset with arg0 := 0x7FFFFFFFFFFFFFFF })).map (fun t => t.err) = some .ok ∧
    (after (exec .bndnext { State.reset with arg0 := 0x8000000000000000 })).map (fun t => t.err) = some .badLen := by decide
theorem witness_PacknextGivesTheLeastFullFragment :
    State.reset.arg0 = 0 ∧ isBoundary 131073 131072 = true ∧ isBoundary 131072 131072 = false ∧
    (0x7FFFFFFFFFFFFFFF : BitVec 64).toNat ≤ 2 ^ 63 - 1 ∧ (0xFFFFFFFFFFFFFFFF : BitVec 64).toNat = 2 ^ 64 - 1 ∧
    2 ^ 63 ≤ (0x8000000000000000 : BitVec 64).toNat := by decide
theorem witness_FragmentsCoverTheStream : fragments 1 0 1 0 = [1] := by decide
theorem witness_StatusAndKvalidShowTheirFields :
    (streaming .dec vv 1 []).stream.state ≠ .closed ∧ (streaming .dec vv 1 []).status = 0x500 ∧
    State.reset.stream.state = .closed := by decide
theorem witness_WrittenRegistersReadBack :
    2 ^ 64 - 1 < 2 ^ 64 ∧
    (after (step { State.reset with moves := [.writeReg 10 (2 ^ 64 - 1), .readReg 10] })).map (fun t => t.moves) =
      some [.readReg 10] ∧
    (after (step { State.reset with moves := [.writeReg 5 65535, .readReg 5] })).map (fun t => t.ilen) = some 65535 := by decide
theorem witness_BufferAndQueueMovesDoTheirEffect :
    (after (performMove (.writeIBUF 4095 [3]) State.reset)).map (fun t => t.ibuf) = some [(4095, 3)] ∧
    (after (performMove (.readOBUF 1 2) { State.reset with olen := 3 })).map (fun t => t.replies) = some [.bytes [0, 0]] ∧
    ({ State.reset with sout := [1, 2] }).sout = [1] ++ [2] := by decide
theorem witness_DisallowedMovesAreRefusedByName :
    4096 < 4096 + ([0] : List Byte).length ∧ State.reset.olen.toNat < 0 + 1 ∧ State.reset.sout.length < 1 ∧
    2 ^ 16 ≤ 65536 ∧ 2 ^ 64 ≤ 18446744073709551616 := by decide
/-- The two states differ in the key slots, `IBUF`, `SIN` and the stream's key. -/
theorem witness_RepliesDependOnVisibleStateOnly :
    isReadMove (.readReg 9) = true ∧
    sameVisible State.reset { State.reset with
      k := keyed.k, ibuf := [(0, 1)], sin := [1], stream := { Stream.closed with key := vk } } :=
  ⟨rfl, fun _ => rfl, rfl, fun _ _ => rfl, rfl⟩

end Sys2Proof.Tests
end

section
/-! ## What a command can do, said once

`Effect s i u e` lists the ways command `i` can end from state `s`: `u` is the state with every effect made but the last, which
is `STATUS.ERR ← e`. `exec_ends` ties it to the model: every command ends in one of them. The statements about which command
writes what, about the outcomes of a step and about the invariant are case splits over it. -/

namespace Sys2Proof.Machine

/-! ### The lengths of outputs -/

theorem length_attrMagic : attrMagic.length = 4 := rfl

theorem length_perBlock_le (f : Block → Block) (d : List Byte) : (perBlock f d).length ≤ bufsz := by
  unfold perBlock bufsz
  split <;> simp

theorem length_cbcEncFrom (k : Block) (m : Nat) (prev : Block) (d : List Byte) :
    (cbcEncFrom k m prev d).length = 16 * m := by
  induction m generalizing prev d with
  | zero => rfl
  | succ m ih => simp [cbcEncFrom, ih]; omega

theorem length_cbcDecFrom (k : Block) (m : Nat) (prev : Block) (c : List Byte) :
    (cbcDecFrom k m prev c).length = 16 * m := by
  induction m generalizing prev c with
  | zero => rfl
  | succ m ih => simp [cbcDecFrom, ih]; omega

theorem length_cbcEnc_le (k : Block) (d : List Byte) : (cbcEnc k d).length ≤ d.length := by
  rw [cbcEnc, length_cbcEncFrom]
  omega

theorem length_cbcDec_le (k : Block) (c : List Byte) : (cbcDec k c).length ≤ c.length := by
  rw [cbcDec, length_cbcDecFrom]
  omega

/-- A record of an accepted length still fits the buffer when it is packed (R169, R170). -/
theorem length_attrPack_le (p : List Byte) (h : p.length ≤ bufsz - attrMagic.length) : (attrPack p).length ≤ bufsz := by
  simp only [length_attrMagic, bufsz] at h
  simp only [attrPack, List.length_append, List.length_replicate, length_attrMagic, bufsz]
  omega

theorem length_stripZeros_le (p : List Byte) : (stripZeros p).length ≤ p.length := by
  simpa [stripZeros] using (List.dropWhile_suffix (· == 0) (l := p.reverse)).length_le

/-- A record `attr_unpack` returns is no longer than the blob, which is no longer than the buffer (R171). -/
theorem length_of_attrUnpack {k : Block} {c p : List Byte} (h : attrUnpack k c = some p) : p.length ≤ bufsz := by
  unfold attrUnpack at h
  split at h
  case isTrue => cases h
  case isFalse hlen =>
    dsimp only at h
    split at h
    case isTrue => cases h
    case isFalse =>
      cases h
      have hstrip := length_stripZeros_le ((cbcDec k c).drop 4)
      have hdec := length_cbcDec_le k c
      simp only [List.length_drop] at hstrip
      omega

theorem State.length_attrRecord {s : State} {p : List Byte} (h : s.attrRecord = some p) : p.length ≤ bufsz := by
  unfold State.attrRecord at h
  split at h
  · cases h
  · exact length_of_attrUnpack h

/-! ### The effects -/

/-- A read of `n` bytes goes ahead (R196, R197, R211). -/
structure State.Reads (s : State) (n : Nat) : Prop where
  active : s.stream.state = .active
  span : readSpan s.stream.len.toNat s.stream.pos.toNat s.arg0.toNat = some n
  enough : n ≤ s.sin.length

/-- The state after a read that reaches the end of the stream, which it finalises (R201). -/
def State.readToEnd (s : State) (n : Nat) : State := (s.readBytes n).setStream (s.readBytes n).stream.finalise

/-- Command `i` from `s` makes the effects that give `u` and then writes `STATUS.ERR ← e`. -/
inductive Effect (s : State) : Instr → State → ErrCode → Prop
  | raised {i : Instr} {e : ErrCode} (listed : e ∈ i.errors) : Effect s i s e
  | nop : Effect s .nop s .ok
  | reset : Effect s .reset s.resetCore .ok
  | output {i : Instr} {v : List Byte} (writer : i.writesOutput = true) (fits : v.length ≤ bufsz) :
      Effect s i (s.out v) .ok
  | attrOfNullNode : Effect s .attrdec (s.setAttrbad true) .keyAccess
  | attrBad : Effect s .attrdec (s.setAttrbad true).noOutput .ok
  | attrRecord {p : List Byte} (fits : p.length ≤ bufsz) : Effect s .attrdec ((s.setAttrbad false).out p) .ok
  | slotSet {i : Instr} {sd : Slot} {key : Block} (writer : i.writesSlots = true) : Effect s i (s.setSlot sd key) .ok
  | slotCleared {sd : Slot} : Effect s (.kclear sd) (s.clearSlot sd) .ok
  | nodeSet {i : Instr} {raw : List Byte} (writer : i.writesNode = true) : Effect s i (s.setNode (NodeKey.ofRaw raw)) .ok
  | nodeLost {sa : Slot} : Effect s (.nunwrap sa) (s.setNode NodeKey.null) .keySlot
  | nodeCleared : Effect s .nclear (s.setNode NodeKey.null) .ok
  | openedEnc {key : Block} {iv : Bytes 8} (length : streamLen s.arg0 = true) :
      Effect s .sopene (s.afterDraw.openStream .enc key iv (zeros 8)) .ok
  | openedDec {key : Block} {iv mac : Bytes 8} (length : streamLen s.arg0 = true) :
      Effect s .sopend (s.openStream .dec key iv mac) .ok
  | readOfDone (done : s.stream.state = .done) : Effect s .sread (s.setRes 0) .ok
  | readOn {n : Nat} (reads : s.Reads n) (before : (s.readBytes n).stream.pos ≠ (s.readBytes n).stream.len) :
      Effect s .sread (s.readBytes n) .ok
  | readLast {n : Nat} (reads : s.Reads n) (atEnd : (s.readBytes n).stream.pos = (s.readBytes n).stream.len)
      (intact : (s.readToEnd n).stream.corrupt = false) : Effect s .sread (s.readToEnd n) .ok
  | readCorrupt {n : Nat} (reads : s.Reads n) (atEnd : (s.readBytes n).stream.pos = (s.readBytes n).stream.len)
      (corrupt : (s.readToEnd n).stream.corrupt = true) : Effect s .sread ((s.readToEnd n).setInteg true) .integrity
  | closed : Effect s .sclose (((s.setStream Stream.closed).emptyQueues).setInteg false) .ok
  | boundary {v : Nat} {b : Bool} : Effect s .bndnext ((s.setRes v).setNone b) .ok
  | fragment {v : Nat} : Effect s .packnext (s.setRes v) .ok

/-- The outcome `r` of command `i` in `s` is the next state of one of its effects. -/
def Ends (s : State) (i : Instr) (r : Result) : Prop :=
  ∃ u e, Effect s i u e ∧ r = .next { u with err := e }

section
variable {s u : State} {i : Instr} {e : ErrCode}

theorem Ends.raise (h : Effect s i u e) : Ends s i (u.raise e) := ⟨u, e, h, rfl⟩

theorem Ends.error (h : e ∈ i.errors) : Ends s i (s.raise e) := Ends.raise (.raised h)

theorem Ends.complete (h : Effect s i u .ok) : Ends s i u.complete := ⟨u, .ok, h, rfl⟩

end

/-! ### Every command ends in one of its effects -/

/-- The commands under a slot key end in an error of theirs or in an output that fits. -/
theorem slotCommand_ends {i : Instr} {lenOk : BitVec 16 → Bool} {f : Block → List Byte → List Byte} (sa : Slot) (s : State)
    (herr : i.errors = [.badLen, .keySlot]) (hw : i.writesOutput = true)
    (hfits : lenOk s.ilen = true → (f s.k[sa] s.operand).length ≤ bufsz) : Ends s i (slotCommand lenOk f sa s) := by
  rcases slotCommand_cases lenOk f sa s with ⟨_, heq⟩ | ⟨_, _, heq⟩ | ⟨hlen, _, heq⟩ <;> rw [heq]
  · exact Ends.error (by simp [herr])
  · exact Ends.error (by simp [herr])
  · exact Ends.complete (.output hw (hfits hlen))

theorem execAesenc_ends (sa : Slot) (s : State) : Ends s (.aesenc sa) (execAesenc sa s) := by
  unfold execAesenc
  exact slotCommand_ends sa s rfl rfl fun _ => by rw [Vector.length_toList]; decide

theorem execAesdec_ends (sa : Slot) (s : State) : Ends s (.aesdec sa) (execAesdec sa s) := by
  unfold execAesdec
  exact slotCommand_ends sa s rfl rfl fun _ => by rw [Vector.length_toList]; decide

theorem length_le_of_cbcLen {s : State} (h : cbcLen s.ilen = true) : s.operand.length ≤ bufsz := by
  simp only [cbcLen, Bool.and_eq_true, decide_eq_true_eq] at h
  simpa using h.2

theorem execKunwrapk_ends (sa sd : Slot) (s : State) : Ends s (.kunwrapk sa sd) (execKunwrapk sa sd s) := by
  unfold execKunwrapk
  split
  · split
    · exact Ends.complete (.slotSet rfl)
    · exact Ends.error (by simp [Instr.errors])
  · exact Ends.error (by simp [Instr.errors])

theorem execKload_ends (sd : Slot) (s : State) : Ends s (.kload sd) (execKload sd s) := by
  unfold execKload
  split
  · exact Ends.complete (.slotSet rfl)
  · exact Ends.error (by simp [Instr.errors])

theorem execPwkdf_ends (sd : Slot) (s : State) : Ends s (.pwkdf sd) (execPwkdf sd s) := by
  unfold execPwkdf
  split
  · exact Ends.complete (.slotSet rfl)
  · exact Ends.error (by simp [Instr.errors])

theorem execAttrenc_ends (s : State) : Ends s .attrenc (execAttrenc s) := by
  unfold execAttrenc
  split
  case isTrue hlen =>
    have hfits : (cbcEnc s.nk.key (attrPack s.operand)).length ≤ bufsz :=
      (length_cbcEnc_le _ _).trans (length_attrPack_le _ (by simpa [recordLen] using hlen))
    split
    · exact Ends.error (by simp [Instr.errors])
    · exact Ends.complete (.output rfl hfits)
    · exact Ends.complete (.output rfl hfits)
  case isFalse => exact Ends.error (by simp [Instr.errors])

theorem execAttrdec_ends (s : State) : Ends s .attrdec (execAttrdec s) := by
  unfold execAttrdec
  cases s.nk.state with
  | null => exact Ends.raise .attrOfNullNode
  | folder | file =>
    dsimp only
    split
    case h_1 => exact Ends.complete .attrBad
    case h_2 p hp => exact Ends.complete (.attrRecord (State.length_attrRecord hp))

theorem execNsplit_ends (s : State) : Ends s .nsplit (execNsplit s) := by
  unfold execNsplit
  split
  · exact Ends.complete (.nodeSet rfl)
  · exact Ends.error (by simp [Instr.errors])

theorem execNunwrap_ends (sa : Slot) (s : State) : Ends s (.nunwrap sa) (execNunwrap sa s) := by
  unfold execNunwrap
  split
  · split
    · exact Ends.complete (.nodeSet rfl)
    · exact Ends.raise .nodeLost
  · exact Ends.error (by simp [Instr.errors])

theorem execNmerge_ends (s : State) : Ends s .nmerge (execNmerge s) := by
  unfold execNmerge
  split
  · exact Ends.complete (.output rfl (by simp [bufsz]))
  · exact Ends.error (by simp [Instr.errors])

theorem execNread_ends (s : State) : Ends s .nread (execNread s) := by
  unfold execNread
  cases s.nk.state with
  | null => exact Ends.error (by simp [Instr.errors])
  | folder | file => exact Ends.complete (.output rfl (by simp [bufsz]))

theorem execSopene_ends (s : State) : Ends s .sopene (execSopene s) := by
  unfold execSopene
  cases s.stream.state with
  | active | done => exact Ends.error (by simp [Instr.errors])
  | closed =>
    dsimp only
    split
    case isTrue hlen => exact Ends.complete (.openedEnc hlen)
    case isFalse => exact Ends.error (by simp [Instr.errors])

theorem execSopend_ends (s : State) : Ends s .sopend (execSopend s) := by
  unfold execSopend
  cases s.stream.state with
  | active | done => exact Ends.error (by simp [Instr.errors])
  | closed =>
    dsimp only
    split
    case isFalse => exact Ends.error (by simp [Instr.errors])
    case isTrue hlen =>
      cases s.nk.state with
      | null | folder => exact Ends.error (by simp [Instr.errors])
      | file => exact Ends.complete (.openedDec hlen)

theorem State.Reads.endRead_ends {s : State} {n : Nat} (h : s.Reads n) : Ends s .sread (s.readBytes n).endRead := by
  rcases (s.readBytes n).endRead_cases with ⟨hne, heq⟩ | ⟨hend, hok, heq⟩ | ⟨hend, hbad, heq⟩ <;> rw [heq]
  · exact Ends.complete (.readOn h hne)
  · exact Ends.complete (.readLast h hend hok)
  · exact Ends.raise (.readCorrupt h hend hbad)

theorem execSread_ends (s : State) : Ends s .sread (execSread s) := by
  rcases execSread_cases s with ⟨_, heq⟩ | ⟨hdone, heq⟩ | ⟨_, _, heq⟩ | ⟨_, _, _, _, heq⟩ | ⟨n, hact, hspan, hsin, heq⟩ <;>
    rw [heq]
  · exact Ends.error (by simp [Instr.errors])
  · exact Ends.complete (.readOfDone hdone)
  · exact Ends.error (by simp [Instr.errors])
  · exact Ends.error (by simp [Instr.errors])
  · exact State.Reads.endRead_ends ⟨hact, hspan, hsin⟩

theorem execSgetkey_ends (s : State) : Ends s .sgetkey (execSgetkey s) := by
  unfold execSgetkey
  split
  case h_1 | h_2 | h_3 => exact Ends.error (by simp [Instr.errors])
  case h_4 | h_5 => exact Ends.complete (.output rfl (by simp [bufsz]))

theorem execSgetmac_ends (s : State) : Ends s .sgetmac (execSgetmac s) := by
  unfold execSgetmac
  cases s.stream.state with
  | closed | active => exact Ends.error (by simp [Instr.errors])
  | done => exact Ends.complete (.output rfl (by simp [bufsz]))

theorem execBndnext_ends (s : State) : Ends s .bndnext (execBndnext s) := by
  unfold execBndnext
  split
  · split
    · exact Ends.complete .boundary
    · exact Ends.complete .boundary
  · exact Ends.error (by simp [Instr.errors])

theorem execPacknext_ends (s : State) : Ends s .packnext (execPacknext s) := by
  unfold execPacknext
  split
  · exact Ends.complete .fragment
  · exact Ends.error (by simp [Instr.errors])

/-- Every command, in every state, ends in the next state of one of its effects (R310). -/
theorem exec_ends (i : Instr) (s : State) : Ends s i (exec i s) := by
  cases i with
  | nop => exact Ends.complete .nop
  | reset => exact Ends.complete .reset
  | aesenc sa => exact execAesenc_ends sa s
  | aesdec sa => exact execAesdec_ends sa s
  | kwrap sa => exact slotCommand_ends sa s rfl rfl fun _ => length_perBlock_le _ _
  | kunwrap sa => exact slotCommand_ends sa s rfl rfl fun _ => length_perBlock_le _ _
  | cbcenc sa => exact slotCommand_ends sa s rfl rfl fun h => (length_cbcEnc_le _ _).trans (length_le_of_cbcLen h)
  | cbcdec sa => exact slotCommand_ends sa s rfl rfl fun h => (length_cbcDec_le _ _).trans (length_le_of_cbcLen h)
  | kload sd => exact execKload_ends sd s
  | kclear sd => exact Ends.complete .slotCleared
  | pwkdf sd => exact execPwkdf_ends sd s
  | kunwrapk sa sd => exact execKunwrapk_ends sa sd s
  | attrenc => exact execAttrenc_ends s
  | attrdec => exact execAttrdec_ends s
  | nsplit => exact execNsplit_ends s
  | nunwrap sa => exact execNunwrap_ends sa s
  | nmerge => exact execNmerge_ends s
  | nread => exact execNread_ends s
  | nclear => exact Ends.complete .nodeCleared
  | sopene => exact execSopene_ends s
  | sopend => exact execSopend_ends s
  | sread => exact execSread_ends s
  | sgetkey => exact execSgetkey_ends s
  | sgetmac => exact execSgetmac_ends s
  | sclose => exact Ends.complete .closed
  | sseek => exact Ends.error (by simp [Instr.errors])
  | swrite => exact Ends.error (by simp [Instr.errors])
  | bndnext => exact execBndnext_ends s
  | packnext => exact execPacknext_ends s

/-- The effect behind a next state of a command. -/
theorem exec_effect {i : Instr} {s t : State} (h : exec i s = .next t) :
    ∃ u e, Effect s i u e ∧ t = { u with err := e } := by
  obtain ⟨u, e, heff, heq⟩ := exec_ends i s
  rw [h] at heq
  cases heq
  exact ⟨u, e, heff, rfl⟩

end Sys2Proof.Machine
end

section
/-! ## Which command writes which state (R23, R27, R31, R33, R36, R37, R61, R191)

Each effect is a frame for all state but its own; the cases named below are the effects that write the state in question, and
their commands are in the writers' table. -/

namespace Sys2Proof.Machine
variable {s u : State} {i : Instr} {e : ErrCode}

theorem Effect.slots_frame (h : Effect s i u e) (hw : i.writesSlots = false) : u.k = s.k ∧ u.kv = s.kv := by
  cases h with
  | slotSet writer => exact absurd (writer.symm.trans hw) (by decide)
  | slotCleared | reset => cases hw
  | _ => simp [State.readToEnd]

theorem Effect.node_frame (h : Effect s i u e) (hw : i.writesNode = false) : u.nk = s.nk := by
  cases h with
  | nodeSet writer => exact absurd (writer.symm.trans hw) (by decide)
  | nodeLost | nodeCleared | reset => cases hw
  | _ => simp [State.readToEnd]

theorem Effect.stream_frame (h : Effect s i u e) (hw : i.writesStream = false) :
    u.stream = s.stream ∧ u.sin = s.sin ∧ u.sout = s.sout := by
  cases h with
  | openedEnc | openedDec | readOn | readLast | readCorrupt | closed | reset => cases hw
  | _ => simp

theorem Effect.output_frame (h : Effect s i u e) (hw : i.writesOutput = false) : u.olen = s.olen ∧ u.obuf = s.obuf := by
  cases h with
  | output writer => exact absurd (writer.symm.trans hw) (by decide)
  | attrBad | attrRecord | reset => cases hw
  | _ => simp [State.readToEnd]

theorem Effect.operands_frame (h : Effect s i u e) (hi : i ≠ .reset) :
    u.ibuf = s.ibuf ∧ u.ilen = s.ilen ∧ u.arg0 = s.arg0 ∧ u.arg1 = s.arg1 ∧ u.packsz = s.packsz := by
  cases h with
  | reset => exact absurd rfl hi
  | _ => simp [State.readToEnd]

theorem Effect.res_frame (h : Effect s i u e) (hw : i.writesRes = false) : u.res = s.res := by
  cases h with
  | readOfDone | readOn | readLast | readCorrupt | boundary | fragment | reset => cases hw
  | _ => simp

theorem Effect.integ_frame (h : Effect s i u e) (hw : i.writesInteg = false) : u.integ = s.integ := by
  cases h with
  | openedEnc | openedDec | readCorrupt | closed | reset => cases hw
  | _ => simp [State.readToEnd]

theorem Effect.attrbad_frame (h : Effect s i u e) (hw : i.writesAttrbad = false) : u.attrbad = s.attrbad := by
  cases h with
  | attrOfNullNode | attrBad | attrRecord | reset => cases hw
  | _ => simp [State.readToEnd]

theorem Effect.noBoundary_frame (h : Effect s i u e) (hw : i.writesNone = false) : u.noBoundary = s.noBoundary := by
  cases h with
  | boundary | reset => cases hw
  | _ => simp [State.readToEnd]

/-- Settles O8: the effects that write slots or `NK` are those of the commands in R23's and R27's tables. -/
theorem keysChangeOnlyByTheirWriters : Obligations.KeysChangeOnlyByTheirWriters := by
  unfold Obligations.KeysChangeOnlyByTheirWriters
  intro i s t h
  obtain ⟨u, e, heff, rfl⟩ := exec_effect h
  exact ⟨heff.slots_frame, heff.node_frame⟩

/-- Settles O9: the effects that write the stream, the queues or `OBUF` are those of the commands in the tables of R33, R61 and
R191. -/
theorem streamAndOutputChangeOnlyByTheirWriters : Obligations.StreamAndOutputChangeOnlyByTheirWriters := by
  unfold Obligations.StreamAndOutputChangeOnlyByTheirWriters
  intro i s t h
  obtain ⟨u, e, heff, rfl⟩ := exec_effect h
  exact ⟨heff.stream_frame, heff.output_frame⟩

/-- Settles O10: only reset writes the operands, and the effects that write `RES` or a flag are those of the commands in the
tables of R36 and R37. -/
theorem operandsAndFlagsChangeOnlyByTheirWriters : Obligations.OperandsAndFlagsChangeOnlyByTheirWriters := by
  unfold Obligations.OperandsAndFlagsChangeOnlyByTheirWriters
  intro i s t h
  obtain ⟨u, e, heff, rfl⟩ := exec_effect h
  exact ⟨heff.operands_frame, heff.res_frame, heff.integ_frame, heff.attrbad_frame, heff.noBoundary_frame⟩

end Sys2Proof.Machine
end

section
/-! ## The outcomes of a host move (R43, R44, R310) -/

namespace Sys2Proof.Machine

/-- Executing a word, legal or not, ends in a next state (R94, R310). -/
theorem executeWord_next (w : Word) (s : State) : ∃ t, executeWord w s = .next t := by
  unfold executeWord
  split
  case h_1 i _ =>
    obtain ⟨u, e, _, heq⟩ := exec_ends i s
    exact ⟨_, heq⟩
  case h_2 => exact ⟨_, rfl⟩

/-! ### Register writes -/

theorem writeRegister_zero {v : Nat} (s : State) (h : v < 2 ^ 16) :
    writeRegister 0 v s = executeWord (BitVec.ofNat 16 v) s := by
  simp only [writeRegister, writableWidth, if_pos h]

theorem writeRegister_arg0 {v : Nat} (s : State) (h : v < 2 ^ 64) :
    writeRegister 2 v s = .next { s with arg0 := BitVec.ofNat 64 v } := by
  simp only [writeRegister, writableWidth, if_pos h]

theorem writeRegister_arg1 {v : Nat} (s : State) (h : v < 2 ^ 64) :
    writeRegister 3 v s = .next { s with arg1 := BitVec.ofNat 64 v } := by
  simp only [writeRegister, writableWidth, if_pos h]

theorem writeRegister_ilen {v : Nat} (s : State) (h : v < 2 ^ 16) :
    writeRegister 5 v s = .next { s with ilen := BitVec.ofNat 16 v } := by
  simp only [writeRegister, writableWidth, if_pos h]

theorem writeRegister_packsz {v : Nat} (s : State) (h : v < 2 ^ 64) :
    writeRegister 10 v s = .next { s with packsz := BitVec.ofNat 64 v } := by
  simp only [writeRegister, writableWidth, if_pos h]

theorem writeRegister_of_not_writable {n : Nat} (v : Nat) (s : State) (h : writableWidth n = none) :
    writeRegister n v s = .refused (if n ≤ 10 then .registerReadOnly else .noSuchRegister) := by
  simp only [writeRegister, h]
  split <;> rfl

theorem writeRegister_of_too_wide {n v w : Nat} (s : State) (h : writableWidth n = some w) (hv : 2 ^ w ≤ v) :
    writeRegister n v s = .refused .valueTooWide := by
  simp only [writeRegister, h, if_neg (Nat.not_lt.mpr hv)]

/-- The registers the host may write, and their widths (R34, R43). -/
theorem writableWidth_eq_some {n w : Nat} (h : writableWidth n = some w) :
    (n = 0 ∨ n = 5) ∧ w = 16 ∨ (n = 2 ∨ n = 3 ∨ n = 10) ∧ w = 64 := by
  unfold writableWidth at h
  split at h <;> cases h <;> simp

/-- Everything a register write can do: execute a word, set one of the four operand registers, or be refused. -/
theorem writeRegister_cases (n v : Nat) (s : State) :
    ((HostMove.writeReg n v).wellFormed = false ∧ ∃ q, writeRegister n v s = .refused q) ∨
    ((HostMove.writeReg n v).wellFormed = true ∧
      (writeRegister n v s = executeWord (BitVec.ofNat 16 v) s ∨
        ∃ a0 a1 il ps, writeRegister n v s = .next { s with arg0 := a0, arg1 := a1, ilen := il, packsz := ps })) := by
  cases hw : writableWidth n with
  | none => exact .inl ⟨by simp [HostMove.wellFormed, hw], _, writeRegister_of_not_writable v s hw⟩
  | some w =>
    by_cases hv : v < 2 ^ w
    · refine .inr ⟨by simp [HostMove.wellFormed, hw, hv], ?_⟩
      rcases writableWidth_eq_some hw with ⟨rfl | rfl, rfl⟩ | ⟨rfl | rfl | rfl, rfl⟩
      · exact .inl (writeRegister_zero s hv)
      · exact .inr ⟨_, _, _, _, writeRegister_ilen s hv⟩
      · exact .inr ⟨_, _, _, _, writeRegister_arg0 s hv⟩
      · exact .inr ⟨_, _, _, _, writeRegister_arg1 s hv⟩
      · exact .inr ⟨_, _, _, _, writeRegister_packsz s hv⟩
    · exact .inl ⟨by simp [HostMove.wellFormed, hw, hv], _, writeRegister_of_too_wide s hw (Nat.not_lt.mp hv)⟩

/-! ### Register reads -/

theorem State.regValue_eq_none {n : Nat} (s : State) (h : readableReg n = false) : s.regValue n = none := by
  unfold State.regValue
  split
  case h_11 => rfl
  all_goals cases h

theorem State.regValue_isSome {n : Nat} (s : State) (h : readableReg n = true) : ∃ v, s.regValue n = some v := by
  obtain ⟨h1, h10⟩ : 1 ≤ n ∧ n ≤ 10 := by simpa [readableReg] using h
  interval_cases n <;> exact ⟨_, rfl⟩

theorem readRegister_of_some {n v : Nat} {s : State} (h : s.regValue n = some v) :
    readRegister n s = .next (s.reply (.number v)) := by
  simp only [readRegister, h]

theorem readRegister_of_none {n : Nat} {s : State} (h : s.regValue n = none) :
    readRegister n s = .refused (if n = 0 then .registerWriteOnly else .noSuchRegister) := by
  simp only [readRegister, h]
  split <;> rfl

/-! ### The moves -/

theorem performMove_writeIBUF {off : Nat} {v : List Byte} (s : State) (h : off + v.length ≤ bufsz) :
    performMove (.writeIBUF off v) s = .next { s with ibuf := s.ibuf.writeRange off v } := by
  simp only [performMove, if_pos h]

theorem performMove_writeIBUF_refused {off : Nat} {v : List Byte} (s : State) (h : bufsz < off + v.length) :
    performMove (.writeIBUF off v) s = .refused .ibufOutOfRange := by
  simp only [performMove, if_neg (Nat.not_le.mpr h)]

theorem performMove_readOBUF {off n : Nat} {s : State} (h : off + n ≤ s.olen.toNat) :
    performMove (.readOBUF off n) s = .next (s.reply (.bytes (s.obuf.readRange off n))) := by
  simp only [performMove, if_pos h]

theorem performMove_readOBUF_refused {off n : Nat} {s : State} (h : s.olen.toNat < off + n) :
    performMove (.readOBUF off n) s = .refused .obufOutOfRange := by
  simp only [performMove, if_neg (Nat.not_le.mpr h)]

theorem performMove_popSOUT {n : Nat} {s : State} (h : n ≤ s.sout.length) :
    performMove (.popSOUT n) s = .next ({ s with sout := s.sout.drop n }.reply (.bytes (s.sout.take n))) := by
  simp only [performMove, if_pos h]

theorem performMove_popSOUT_refused {n : Nat} {s : State} (h : s.sout.length < n) :
    performMove (.popSOUT n) s = .refused .soutTooShort := by
  simp only [performMove, if_neg (Nat.not_le.mpr h)]

/-- A move ends in a next state if R43 allows it, and is refused if not. -/
theorem performMove_outcome (m : HostMove) (s : State) :
    (allowedMove m s = true ∧ ∃ t, performMove m s = .next t) ∨
    (allowedMove m s = false ∧ ∃ q, performMove m s = .refused q) := by
  cases m with
  | writeReg n v =>
    rcases writeRegister_cases n v s with ⟨hwf, hq⟩ | ⟨hwf, hexec | ⟨_, _, _, _, hset⟩⟩
    · exact .inr ⟨hwf, hq⟩
    · obtain ⟨t, ht⟩ := executeWord_next (BitVec.ofNat 16 v) s
      exact .inl ⟨hwf, t, hexec.trans ht⟩
    · exact .inl ⟨hwf, _, hset⟩
  | readReg n =>
    cases hr : readableReg n with
    | false => exact .inr ⟨hr, _, readRegister_of_none (s.regValue_eq_none hr)⟩
    | true =>
      obtain ⟨v, hv⟩ := s.regValue_isSome hr
      exact .inl ⟨hr, _, readRegister_of_some hv⟩
  | writeIBUF off v =>
    by_cases h : off + v.length ≤ bufsz
    · exact .inl ⟨decide_eq_true h, _, performMove_writeIBUF s h⟩
    · exact .inr ⟨decide_eq_false h, _, performMove_writeIBUF_refused s (Nat.not_le.mp h)⟩
  | readOBUF off n =>
    by_cases h : off + n ≤ s.olen.toNat
    · exact .inl ⟨decide_eq_true h, _, performMove_readOBUF h⟩
    · exact .inr ⟨decide_eq_false h, _, performMove_readOBUF_refused (Nat.not_le.mp h)⟩
  | pushSIN v => exact .inl ⟨rfl, _, rfl⟩
  | popSOUT n =>
    by_cases h : n ≤ s.sout.length
    · exact .inl ⟨decide_eq_true h, _, performMove_popSOUT h⟩
    · exact .inr ⟨decide_eq_false h, _, performMove_popSOUT_refused (Nat.not_le.mp h)⟩
  | hardReset => exact .inl ⟨rfl, _, rfl⟩

/-- Whether a move is allowed does not depend on which moves are still pending. -/
theorem allowedMove_moves (m : HostMove) (s : State) (rest : List HostMove) :
    allowedMove m { s with moves := rest } = allowedMove m s := by
  cases m <;> rfl

theorem step_of_idle {s : State} (h : s.moves = []) : step s = .next s := by
  simp only [step, h]

theorem step_of_move {s : State} {m : HostMove} {rest : List HostMove} (h : s.moves = m :: rest) :
    step s = performMove m { s with moves := rest } := by
  simp only [step, h]

/-- Settles O5: a step is idle or makes one move, whose outcome `performMove_outcome` gives. -/
theorem stepStopsOnlyOnADisallowedMove : Obligations.StepStopsOnlyOnADisallowedMove := by
  unfold Obligations.StepStopsOnlyOnADisallowedMove
  refine fun s => ⟨(nomatch ·), step_of_idle, ?_⟩
  cases hm : s.moves with
  | nil => simp [step_of_idle hm]
  | cons m rest =>
    rw [step_of_move hm]
    rcases performMove_outcome m { s with moves := rest } with ⟨hallow, t, ht⟩ | ⟨hallow, q, hq⟩ <;>
      rw [allowedMove_moves] at hallow
    · simp [ht, hallow]
    · simp [hq, hallow]

/-! ### The statements about single moves -/

/-- Settles O56: `ReadReg` of a register replies with its value. -/
theorem readRegReturnsTheRegister : Obligations.ReadRegReturnsTheRegister := by
  unfold Obligations.ReadRegReturnsTheRegister
  intro s e he
  have hval : s.regValue e.1 = some e.2 := by
    simp only [List.mem_cons, List.not_mem_nil, or_false] at he
    rcases he with rfl | rfl | rfl | rfl | rfl | rfl | rfl | rfl | rfl | rfl <;> rfl
  exact readRegister_of_some hval

/-- A read of a register as the pending move replies with its value and changes nothing else. -/
theorem step_readReg {s : State} {n v : Nat} {rest : List HostMove} (hm : s.moves = .readReg n :: rest)
    (hv : s.regValue n = some v) : step s = .next { s with moves := rest, replies := s.replies ++ [.number v] } := by
  have hval : State.regValue { s with moves := rest } n = some v := hv
  exact (step_of_move hm).trans (readRegister_of_some hval)

/-- Settles O57: each of the four operand registers is set by its write and shown by the read that follows. -/
theorem writtenRegistersReadBack : Obligations.WrittenRegistersReadBack := by
  unfold Obligations.WrittenRegistersReadBack
  intro s n v rest hm hn
  rcases hn with ⟨rfl | rfl | rfl, hv⟩ | ⟨rfl, hv⟩
  · exact ⟨_, _, (step_of_move hm).trans (writeRegister_arg0 _ hv), rfl,
      step_readReg rfl (congrArg some (Nat.mod_eq_of_lt hv)), rfl⟩
  · exact ⟨_, _, (step_of_move hm).trans (writeRegister_arg1 _ hv), rfl,
      step_readReg rfl (congrArg some (Nat.mod_eq_of_lt hv)), rfl⟩
  · exact ⟨_, _, (step_of_move hm).trans (writeRegister_packsz _ hv), rfl,
      step_readReg rfl (congrArg some (Nat.mod_eq_of_lt hv)), rfl⟩
  · exact ⟨_, _, (step_of_move hm).trans (writeRegister_ilen _ hv), rfl,
      step_readReg rfl (congrArg some (Nat.mod_eq_of_lt hv)), rfl⟩

/-- Settles O58: the buffer moves by the laws of the buffers, the queue moves by those of lists. -/
theorem bufferAndQueueMovesDoTheirEffect : Obligations.BufferAndQueueMovesDoTheirEffect := by
  unfold Obligations.BufferAndQueueMovesDoTheirEffect
  intro s off n v w
  refine ⟨fun h => ⟨_, performMove_writeIBUF s h, rfl, fun j hj => ?_, fun a ha => ?_⟩,
    fun h => ⟨_, performMove_readOBUF h, Memory.length_readRange _ _ _, fun j => Memory.getD_readRange _ _ _ j⟩,
    rfl, fun h => ?_⟩
  · simp [Memory.read_writeRange, hj]
  · rw [Memory.read_writeRange, if_neg (by omega)]
  · rw [performMove_popSOUT (by simp [h])]
    simp [h, State.reply]

/-- Settles O59: one refusal for each condition of R43's "allowed when" column. -/
theorem disallowedMovesAreRefusedByName : Obligations.DisallowedMovesAreRefusedByName := by
  unfold Obligations.DisallowedMovesAreRefusedByName
  refine fun s n v off bs => ⟨fun h => ?readOnly, fun h => ⟨?noSuch, ?noSuchRead⟩, rfl, fun h => ?tooWide,
    performMove_writeIBUF_refused s, performMove_readOBUF_refused, performMove_popSOUT_refused⟩
  case readOnly =>
    simp only [List.mem_cons, List.not_mem_nil, or_false] at h
    rcases h with rfl | rfl | rfl | rfl | rfl | rfl <;> rfl
  case noSuch =>
    have hw : writableWidth n = none := by
      by_contra hne
      obtain ⟨w, hw⟩ := Option.ne_none_iff_exists'.mp hne
      have := writableWidth_eq_some hw
      omega
    exact (writeRegister_of_not_writable v s hw).trans (by rw [if_neg (by omega)])
  case noSuchRead =>
    have hr : readableReg n = false := by simp [readableReg]; omega
    exact (readRegister_of_none (s.regValue_eq_none hr)).trans (by rw [if_neg (by omega)])
  case tooWide =>
    simp only [List.mem_cons, List.not_mem_nil, or_false] at h
    obtain ⟨w, hw, hv⟩ : ∃ w, writableWidth n = some w ∧ 2 ^ w ≤ v := by
      rcases h with ⟨rfl | rfl, hv⟩ | ⟨rfl | rfl | rfl, hv⟩ <;> exact ⟨_, rfl, hv⟩
    exact writeRegister_of_too_wide s hw hv

/-! ### What a read move shows (R24, R44) -/

/-- A range of a buffer depends on the bytes it reads only. -/
theorem Memory.readRange_congr {m m' : Memory} {off n : Nat} (h : ∀ a, a < off + n → m.read a = m'.read a) :
    m.readRange off n = m'.readRange off n := by
  refine List.map_congr_left fun j hj => h _ ?_
  have := List.mem_range.mp hj
  omega

/-- Settles O60: each read move is decided, and its reply made, from what `sameVisible` fixes. -/
theorem repliesDependOnVisibleStateOnly : Obligations.RepliesDependOnVisibleStateOnly := by
  unfold Obligations.RepliesDependOnVisibleStateOnly
  rintro m s t hread ⟨hreg, holen, hobuf, hsout⟩
  cases m with
  | writeReg | writeIBUF | pushSIN | hardReset => cases hread
  | readReg n =>
    cases hv : s.regValue n with
    | none => exact .inr ⟨_, readRegister_of_none hv, readRegister_of_none ((hreg n).symm.trans hv)⟩
    | some v =>
      exact .inl ⟨_, _, _, readRegister_of_some hv, readRegister_of_some ((hreg n).symm.trans hv), rfl, rfl⟩
  | readOBUF off n =>
    by_cases h : off + n ≤ s.olen.toNat
    · have hbytes : s.obuf.readRange off n = t.obuf.readRange off n :=
        Memory.readRange_congr fun a ha => hobuf a (by omega)
      exact .inl ⟨_, _, _, performMove_readOBUF h, performMove_readOBUF (holen ▸ h), rfl, by rw [hbytes]; rfl⟩
    · have h' := Nat.not_le.mp h
      exact .inr ⟨_, performMove_readOBUF_refused h', performMove_readOBUF_refused (holen ▸ h')⟩
  | popSOUT n =>
    by_cases h : n ≤ s.sout.length
    · exact .inl ⟨_, _, _, performMove_popSOUT h, performMove_popSOUT (hsout ▸ h), rfl, by rw [hsout]; rfl⟩
    · have h' := Nat.not_le.mp h
      exact .inr ⟨_, performMove_popSOUT_refused h', performMove_popSOUT_refused (hsout ▸ h')⟩

end Sys2Proof.Machine
end

section
/-! ## The composed registers (R34, R35) and reset (R42) -/

namespace Sys2Proof.Machine

theorem State.getLsbD_kvalid (s : State) (j : Slot) : s.kvalid.getLsbD j = s.kv[j] := by
  simp [State.kvalid]

theorem Stream.smode_of_not_closed {S : Stream} (h : S.state ≠ .closed) : S.smode = S.mode.code := by
  unfold Stream.smode
  split
  case h_1 hc => exact absurd hc h
  all_goals rfl

theorem Stream.smode_of_closed {S : Stream} (h : S.state = .closed) : S.smode = 0 := by
  unfold Stream.smode
  rw [h]

/-- A field of `STATUS` is a field of the concatenation whose widths are not yet added up, so that the laws of `++` apply. -/
theorem State.extractLsb'_status (s : State) (start len : Nat) :
    s.status.extractLsb' start len =
      ((0 : BitVec 13) ++ BitVec.ofBool s.noBoundary ++ BitVec.ofBool s.attrbad ++ BitVec.ofBool s.integ ++ (0 : BitVec 2)
        ++ s.nk.state.code ++ (0 : BitVec 1) ++ s.stream.smode ++ s.stream.state.code ++ s.err.code).extractLsb' start len :=
  rfl

/-- A bit of `STATUS`, likewise. -/
theorem State.getLsbD_status (s : State) (i : Nat) :
    s.status.getLsbD i =
      ((0 : BitVec 13) ++ BitVec.ofBool s.noBoundary ++ BitVec.ofBool s.attrbad ++ BitVec.ofBool s.integ ++ (0 : BitVec 2)
        ++ s.nk.state.code ++ (0 : BitVec 1) ++ s.stream.smode ++ s.stream.state.code ++ s.err.code).getLsbD i :=
  rfl

/-- The fields of `STATUS` of more than one bit, and `SMODE`, at their places (R35). -/
theorem State.status_fields (s : State) :
    s.status.extractLsb' 0 8 = s.err.code ∧ s.status.extractLsb' 8 2 = s.stream.state.code ∧
    s.status.extractLsb' 10 1 = s.stream.smode ∧ s.status.extractLsb' 12 2 = s.nk.state.code ∧
    s.status.extractLsb' 14 2 = 0 ∧ s.status.extractLsb' 19 13 = 0 := by
  refine ⟨?_, ?_, ?_, ?_, ?_, ?_⟩ <;>
    simp only [State.extractLsb'_status, BitVec.extractLsb'_append_eq_of_le, BitVec.extractLsb'_append_eq_of_add_le,
      BitVec.extractLsb'_eq_self, Nat.reduceLeDiff, Nat.reduceSub]

/-- The single bits of `STATUS` at their places (R35). -/
theorem State.status_bits (s : State) :
    s.status.getLsbD 11 = false ∧ s.status.getLsbD 16 = s.integ ∧ s.status.getLsbD 17 = s.attrbad ∧
    s.status.getLsbD 18 = s.noBoundary := by
  simp only [State.getLsbD_status, BitVec.getLsbD_append]
  simp

/-- Settles O55: the fields and bits of `STATUS`, with R35's rule for `SMODE` of a closed stream, and the bits of `KVALID`. -/
theorem statusAndKvalidShowTheirFields : Obligations.StatusAndKvalidShowTheirFields := by
  unfold Obligations.StatusAndKvalidShowTheirFields
  intro s
  obtain ⟨herr, hsstate, hsmode, hnkstate, hbits14, hbits19⟩ := s.status_fields
  obtain ⟨hbit11, hinteg, hattrbad, hnone⟩ := s.status_bits
  exact ⟨herr, hsstate, fun h => hsmode.trans (Stream.smode_of_not_closed h), fun h => hsmode.trans (Stream.smode_of_closed h),
    hbit11, hnkstate, hbits14, hinteg, hattrbad, hnone, hbits19, s.getLsbD_kvalid, rfl, rfl, rfl, rfl⟩

theorem State.status_resetCore (s : State) : s.resetCore.status = 0 := by
  have h : State.reset.status = 0 := by decide
  exact h

theorem State.kvalid_resetCore (s : State) : s.resetCore.kvalid = 0 := by
  ext i hi
  simp [State.kvalid, State.reset]

/-- Settles O13: both resets give `resetCore`, whose every entry is read off. -/
theorem resetGivesTheTabulatedState : Obligations.ResetGivesTheTabulatedState := by
  unfold Obligations.ResetGivesTheTabulatedState
  refine ⟨by decide, fun s => ⟨s.resetCore, rfl, rfl, ?slots, rfl, rfl, fun a => ⟨rfl, rfl⟩, rfl, rfl, rfl, rfl, rfl, rfl,
    ?registers⟩⟩
  case slots => simp [State.reset]
  case registers =>
    have hregs : (List.range 11).map s.resetCore.regValue =
        [none, some s.resetCore.status.toNat, some 0, some 0, some 0, some 0, some 0, some 0, some 0,
          some s.resetCore.kvalid.toNat, some 1048576] := rfl
    rw [hregs, s.status_resetCore, s.kvalid_resetCore]
    rfl

end Sys2Proof.Machine
end

section
/-! ## The invariant (R26, R28, R29, R32, R36, R196, R201, R202)

First what opening, reading and finalising do to the invariant of the stream, then one rule per operation of the state, then
every effect, every move and every step. -/

namespace Sys2Proof.Machine

/-! ### The stream -/

theorem Stream.closed_inv : Stream.closed.Inv := by
  decide

theorem streamLen_iff (v : BitVec 64) : streamLen v = true ↔ 0 < v.toNat ∧ v.toNat ≤ lenMax := by
  simp [streamLen, Nat.pos_iff_ne_zero]

/-- A fresh stream of an accepted length (R192, R193). -/
theorem Stream.fresh_inv {mode : StreamMode} {key : Block} {iv expmac : Bytes 8} {L : BitVec 64} (hL : streamLen L = true)
    (hmac : mode = .enc → expmac = zeros 8) : (Stream.fresh mode key iv expmac L).Inv := by
  obtain ⟨hpos, hmax⟩ := (streamLen_iff L).mp hL
  exact ⟨hmax, nofun, fun _ => ⟨hpos, rfl, (Nat.zero_div 16).symm, rfl⟩, nofun, hmac⟩

/-- Consuming bytes counts their blocks, the last of which may be short (R195, R197). -/
theorem Stream.consume_ctr (cfg : Config) (S : Stream) (x : List Byte) :
    (S.consume cfg x).1.ctr = S.ctr + BitVec.ofNat 64 ((x.length + 15) / 16) :=
  Stream.blockSteps_ctr cfg _ S _ x

/-- Where a stream stands after a read: it is still active and keeps its invariant, or it is at its end and what is left to do is
to finalise it. -/
structure Stream.AfterRead (T : Stream) : Prop where
  state : T.state = .active
  length : 0 < T.len.toNat ∧ T.len.toNat ≤ lenMax
  ctr : T.ctr.toNat = (T.pos.toNat + 15) / 16
  metamac : T.metamac = zeros 8
  expmac : T.mode = .enc → T.expmac = zeros 8
  pos : T.pos = T.len ∨ T.pos.toNat < T.len.toNat ∧ T.pos.toNat % 16 = 0

/-- The size rule (R196): a read that goes ahead ends at the end of the stream, or before it after a multiple of 16 bytes. -/
theorem readSpan_end {L pos count n : Nat} (h : readSpan L pos count = some n) (hpos : pos < L) :
    pos + n = L ∨ pos + n < L ∧ n % 16 = 0 := by
  rcases readSpan_cases L pos count with ⟨_, heq⟩ | ⟨_, _, heq⟩ | ⟨_, _, heq⟩ <;> rw [heq] at h <;> cases h
  · exact .inl (by omega)
  · exact .inr (by omega)

theorem Stream.consume_afterRead {cfg : Config} {S : Stream} {x : List Byte} {count : Nat} (hinv : S.Inv)
    (hact : S.state = .active) (hspan : readSpan S.len.toNat S.pos.toNat count = some x.length) :
    (S.consume cfg x).1.AfterRead := by
  obtain ⟨hmax, -, hactive, -, hexp⟩ := hinv
  obtain ⟨hlt, haligned, hctr, hmeta⟩ := hactive hact
  have hsetup := S.consume_setup cfg x
  have hlen : (S.consume cfg x).1.len = S.len := hsetup.len
  have hend := readSpan_end hspan hlt
  have hmax' : lenMax < 2 ^ 63 := by decide
  have hposNat : (S.consume cfg x).1.pos.toNat = S.pos.toNat + x.length := by
    rw [Stream.consume_pos, BitVec.toNat_ofNat, Nat.mod_eq_of_lt (by omega)]
  refine ⟨hsetup.state.trans hact, by rw [hlen]; omega, ?ctr, hsetup.metamac.trans hmeta, ?expmac, ?pos⟩
  case ctr =>
    rw [hposNat, Stream.consume_ctr, BitVec.toNat_add, BitVec.toNat_ofNat, hctr]
    omega
  case expmac =>
    intro hmode
    exact hsetup.expmac.trans (hexp (hsetup.mode.symm.trans hmode))
  case pos =>
    rw [hlen, hposNat]
    rcases hend with heq | ⟨hlt', hmod⟩
    · exact .inl (BitVec.eq_of_toNat_eq (hposNat.trans heq))
    · exact .inr (by omega)

theorem Stream.AfterRead.inv {T : Stream} (h : T.AfterRead) (hne : T.pos ≠ T.len) : T.Inv := by
  obtain ⟨hlt, hmod⟩ := h.pos.resolve_left hne
  have hctr := h.ctr
  refine ⟨h.length.2, fun hc => ?_, fun _ => ⟨hlt, hmod, by omega, h.metamac⟩, fun hd => ?_, h.expmac⟩
  · cases h.state.symm.trans hc
  · cases h.state.symm.trans hd

/-- Finalising a stream at its end leaves it done, with the tag of its file MAC (R201). -/
theorem Stream.AfterRead.finalise_inv {T : Stream} (h : T.AfterRead) (hend : T.pos = T.len) : T.finalise.Inv :=
  ⟨h.length.2, nofun, nofun, fun _ => ⟨h.length.1, hend, hend ▸ h.ctr, rfl⟩, h.expmac⟩

theorem Stream.corrupt_iff (S : Stream) : S.corrupt = true ↔ S.mode = .dec ∧ S.metamac ≠ S.expmac := by
  simp [Stream.corrupt]

/-! ### One rule for each operation of the state -/

theorem NodeKey.null_inv : NodeKey.null.Inv := ⟨fun _ => rfl, nofun⟩

theorem NodeKey.ofRaw_inv (raw : List Byte) : (NodeKey.ofRaw raw).Inv := by
  unfold NodeKey.ofRaw
  split
  · exact ⟨nofun, nofun⟩
  · exact ⟨nofun, fun _ => ⟨rfl, rfl⟩⟩

/-- The tie of `INTEG` to the stream when the stream is not done. -/
theorem integ_iff_of_not_done {b : Bool} {S : Stream} (hS : S.state ≠ .done) :
    (b = true ↔ S.state = .done ∧ S.mode = .dec ∧ S.metamac ≠ S.expmac) ↔ b = false := by
  simp [hS]

namespace State.Inv
variable {s : State}

theorem reset : State.reset.Inv :=
  ⟨rfl, rfl, by decide, fun j _ => by simp [State.reset], NodeKey.null_inv, Stream.closed_inv, by decide⟩

theorem out (h : s.Inv) {v : List Byte} (hv : v.length ≤ bufsz) : (s.out v).Inv := by
  obtain ⟨hibuf, hobuf, -, hslots, hnode, hstream, hinteg⟩ := h
  have holen : (s.out v).olen.toNat ≤ bufsz := (Nat.mod_le _ _).trans hv
  exact ⟨hibuf, s.obuf.writeRange_wf 0 v hobuf (by omega), holen, hslots, hnode, hstream, hinteg⟩

theorem noOutput (h : s.Inv) : s.noOutput.Inv := by
  obtain ⟨hibuf, hobuf, -, hslots, hnode, hstream, hinteg⟩ := h
  exact ⟨hibuf, hobuf, Nat.zero_le _, hslots, hnode, hstream, hinteg⟩

theorem writeIBUF (h : s.Inv) {off : Nat} {v : List Byte} (hv : off + v.length ≤ bufsz) :
    { s with ibuf := s.ibuf.writeRange off v }.Inv := by
  obtain ⟨hibuf, hrest⟩ := h
  exact ⟨s.ibuf.writeRange_wf off v hibuf hv, hrest⟩

/-- A slot and its flag are written together: an invalid slot must be written zero (R272). -/
theorem writeSlot (h : s.Inv) (sd : Slot) {key : Block} {b : Bool} (hkey : b = false → key = zeros 16) :
    { s with k := s.k.set sd key, kv := s.kv.set sd b }.Inv := by
  obtain ⟨hibuf, hobuf, holen, hslots, hrest⟩ := h
  refine ⟨hibuf, hobuf, holen, fun j hj => ?_, hrest⟩
  by_cases hjd : (sd : Nat) = j
  · simp only [Fin.getElem_fin, Vector.getElem_set, hjd, if_true] at hj ⊢
    exact hkey hj
  · simp only [Fin.getElem_fin, Vector.getElem_set, hjd, if_false] at hj ⊢
    exact hslots j hj

theorem setSlot (h : s.Inv) (sd : Slot) (key : Block) : (s.setSlot sd key).Inv := h.writeSlot sd nofun

theorem clearSlot (h : s.Inv) (sd : Slot) : (s.clearSlot sd).Inv := h.writeSlot sd fun _ => rfl

theorem setNode (h : s.Inv) {n : NodeKey} (hn : n.Inv) : (s.setNode n).Inv := by
  obtain ⟨hibuf, hobuf, holen, hslots, -, hstream, hinteg⟩ := h
  exact ⟨hibuf, hobuf, holen, hslots, hn, hstream, hinteg⟩

/-- A stream that keeps its own invariant, with the flag that belongs to it. -/
theorem setStreamInteg (h : s.Inv) {S : Stream} {b : Bool} (hS : S.Inv)
    (hb : b = true ↔ S.state = .done ∧ S.mode = .dec ∧ S.metamac ≠ S.expmac) : ((s.setStream S).setInteg b).Inv := by
  obtain ⟨hibuf, hobuf, holen, hslots, hnode, -, -⟩ := h
  exact ⟨hibuf, hobuf, holen, hslots, hnode, hS, hb⟩

theorem setStream_closed (h : s.Inv) : ((s.setStream Stream.closed).setInteg false).Inv :=
  h.setStreamInteg Stream.closed_inv ((integ_iff_of_not_done (show StreamState.closed ≠ .done from nofun)).mpr rfl)

theorem openStream (h : s.Inv) {mode : StreamMode} {key : Block} {iv mac : Bytes 8} (hL : streamLen s.arg0 = true)
    (hmac : mode = .enc → mac = zeros 8) : (s.openStream mode key iv mac).Inv :=
  h.setStreamInteg (Stream.fresh_inv hL hmac)
    ((integ_iff_of_not_done (show StreamState.active ≠ .done from nofun)).mpr rfl)

theorem afterDraw (h : s.Inv) : s.afterDraw.Inv := by
  rcases s.afterDraw_cases with ⟨_, _, _, _, heq⟩ | ⟨_, _, heq⟩ <;> rw [heq] <;> exact h

theorem resetCore (s : State) : s.resetCore.Inv := State.Inv.reset

/-! ### Reads -/

theorem integ_of_active (h : s.Inv) (hact : s.stream.state = .active) : s.integ = false := by
  obtain ⟨-, -, -, -, -, -, hinteg⟩ := h
  exact (integ_iff_of_not_done (by rw [hact]; decide)).mp hinteg

theorem afterRead (h : s.Inv) {n : Nat} (hr : s.Reads n) : (s.readBytes n).stream.AfterRead := by
  obtain ⟨-, -, -, -, -, hstream, -⟩ := h
  have hn : (s.sin.take n).length = n := List.length_take_of_le hr.enough
  exact Stream.consume_afterRead hstream hr.active (by rw [hn]; exact hr.span)

/-- A read that goes on leaves an active stream, so `INTEG` stays 0. -/
theorem readBytes (h : s.Inv) {n : Nat} (hr : s.Reads n) (hne : (s.readBytes n).stream.pos ≠ (s.readBytes n).stream.len) :
    (s.readBytes n).Inv := by
  have hafter := h.afterRead hr
  have hinteg : (s.readBytes n).integ = false := h.integ_of_active hr.active
  have hnd : (s.readBytes n).stream.state ≠ .done := by rw [hafter.state]; decide
  obtain ⟨hibuf, hobuf, holen, hslots, hnode, -, -⟩ := h
  exact ⟨hibuf, hobuf, holen, hslots, hnode, hafter.inv hne, (integ_iff_of_not_done hnd).mpr hinteg⟩

/-- A read to the end finalises the stream; with `INTEG` set exactly when the check fails the invariant holds (R202). -/
theorem readToEnd (h : s.Inv) {n : Nat} (hr : s.Reads n) (hend : (s.readBytes n).stream.pos = (s.readBytes n).stream.len) :
    ((s.readToEnd n).setInteg (s.readToEnd n).stream.corrupt).Inv := by
  have hfin := (h.afterRead hr).finalise_inv hend
  obtain ⟨hibuf, hobuf, holen, hslots, hnode, -, -⟩ := h
  refine ⟨hibuf, hobuf, holen, hslots, hnode, hfin, ?_⟩
  exact (Stream.corrupt_iff _).trans ⟨fun hc => ⟨rfl, hc⟩, fun hc => hc.2⟩

/-- A read to the end whose check holds needs no write of `INTEG`: it is 0 already. -/
theorem readToEnd_intact (h : s.Inv) {n : Nat} (hr : s.Reads n)
    (hend : (s.readBytes n).stream.pos = (s.readBytes n).stream.len) (hok : (s.readToEnd n).stream.corrupt = false) :
    (s.readToEnd n).Inv := by
  have hinteg : (s.readToEnd n).integ = false := h.integ_of_active hr.active
  have hset : (s.readToEnd n).setInteg false = s.readToEnd n := by rw [← hinteg]; rfl
  exact hset ▸ hok ▸ h.readToEnd hr hend

end State.Inv

/-! ### Effects, moves, steps -/

theorem Effect.keeps_inv {s u : State} {i : Instr} {e : ErrCode} (heff : Effect s i u e) (h : s.Inv) : u.Inv := by
  cases heff with
  | raised | nop | attrOfNullNode | readOfDone | boundary | fragment => exact h
  | reset => exact State.Inv.resetCore s
  | output _ fits => exact h.out fits
  | attrBad => exact State.Inv.noOutput (s := s.setAttrbad true) h
  | attrRecord fits => exact State.Inv.out (s := s.setAttrbad false) h fits
  | slotSet => exact h.setSlot _ _
  | slotCleared => exact h.clearSlot _
  | nodeSet => exact h.setNode (NodeKey.ofRaw_inv _)
  | nodeLost | nodeCleared => exact h.setNode NodeKey.null_inv
  | openedEnc length => exact h.afterDraw.openStream (by rwa [State.afterDraw_arg0]) fun _ => rfl
  | openedDec length => exact h.openStream length nofun
  | readOn reads before => exact h.readBytes reads before
  | readLast reads atEnd intact => exact h.readToEnd_intact reads atEnd intact
  | readCorrupt reads atEnd corrupt => exact corrupt ▸ h.readToEnd reads atEnd
  | closed => exact h.setStream_closed

theorem executeWord_keeps_inv {w : Word} {s t : State} (h : s.Inv) (ht : executeWord w s = .next t) : t.Inv := by
  unfold executeWord at ht
  split at ht
  case h_1 i _ =>
    obtain ⟨u, e, heff, rfl⟩ := exec_effect ht
    exact heff.keeps_inv h
  case h_2 =>
    cases ht
    exact h

theorem performMove_keeps_inv {m : HostMove} {s t : State} (h : s.Inv) (ht : performMove m s = .next t) : t.Inv := by
  cases m with
  | writeReg n v =>
    rcases writeRegister_cases n v s with ⟨_, q, hq⟩ | ⟨_, hexec | ⟨_, _, _, _, hset⟩⟩
    · cases hq.symm.trans ht
    · exact executeWord_keeps_inv h (hexec.symm.trans ht)
    · cases hset.symm.trans ht
      exact h
  | readReg n =>
    cases hv : s.regValue n with
    | none => cases (readRegister_of_none hv).symm.trans ht
    | some v =>
      cases (readRegister_of_some hv).symm.trans ht
      exact h
  | writeIBUF off v =>
    by_cases hfit : off + v.length ≤ bufsz
    · cases (performMove_writeIBUF s hfit).symm.trans ht
      exact h.writeIBUF hfit
    · cases (performMove_writeIBUF_refused s (Nat.not_le.mp hfit)).symm.trans ht
  | readOBUF off n =>
    by_cases hfit : off + n ≤ s.olen.toNat
    · cases (performMove_readOBUF hfit).symm.trans ht
      exact h
    · cases (performMove_readOBUF_refused (Nat.not_le.mp hfit)).symm.trans ht
  | pushSIN v =>
    cases ht
    exact h
  | popSOUT n =>
    by_cases hfit : n ≤ s.sout.length
    · cases (performMove_popSOUT hfit).symm.trans ht
      exact h
    · cases (performMove_popSOUT_refused (Nat.not_le.mp hfit)).symm.trans ht
  | hardReset =>
    cases ht
    exact State.Inv.resetCore s

/-- Settles O12. -/
theorem resetHasTheInvariant : Obligations.ResetHasTheInvariant := by
  unfold Obligations.ResetHasTheInvariant
  exact State.Inv.reset

/-- Settles O11: a step is idle or one move, a move changes what the invariant speaks of by an effect or by a write of `IBUF`,
and each effect keeps it. -/
theorem stepKeepsTheInvariant : Obligations.StepKeepsTheInvariant := by
  unfold Obligations.StepKeepsTheInvariant
  intro s t h ht
  cases hm : s.moves with
  | nil =>
    cases (step_of_idle hm).symm.trans ht
    exact h
  | cons m rest =>
    have hrest : State.Inv { s with moves := rest } := h
    exact performMove_keeps_inv hrest ((step_of_move hm).symm.trans ht)

end Sys2Proof.Machine
end

section
/-! ## The command write (R72, R74, R99) and the nonce block (R63, R194) -/

namespace Sys2Proof.Machine

theorem executeWord_of_decode {w : Word} {i : Instr} (s : State) (h : decode w = .ok i) : executeWord w s = exec i s := by
  simp only [executeWord, h]

/-- Settles O4: the write is the step's one move, and a command word always fits in `CMD`. -/
theorem stepRunsTheDecodedCommand : Obligations.StepRunsTheDecodedCommand := by
  unfold Obligations.StepRunsTheDecodedCommand
  intro s rest w i hm hd
  calc step s
      = writeRegister 0 w.toNat { s with moves := rest } := step_of_move hm
    _ = executeWord (BitVec.ofNat 16 w.toNat) { s with moves := rest } := writeRegister_zero _ w.isLt
    _ = executeWord w { s with moves := rest } := by rw [BitVec.ofNat_toNat, BitVec.setWidth_eq]
    _ = exec i { s with moves := rest } := executeWord_of_decode _ hd

/-! ### Two halves of a block, and the big-endian byte string of R9 -/

theorem getElem_joinHalves_left (a b : Bytes 8) (i : Fin 8) : (joinHalves a b)[i.val]'(by omega) = a[i] := by
  simp [joinHalves]

theorem getElem_joinHalves_right (a b : Bytes 8) (i : Fin 8) : (joinHalves a b)[i.val + 8]'(by omega) = b[i] := by
  simp [joinHalves]

theorem toNat_getElem_be64 (v : Nat) (i : Fin 8) : (be64 v)[i].toNat = v / 256 ^ (7 - i.val) % 256 := by
  have hpow : 2 ^ (8 * (7 - i.val)) = 256 ^ (7 - i.val) := pow_mul 2 8 _
  simp [be64, Nat.shiftRight_eq_div_pow, hpow]

/-- Settles O34: the nonce block is `iv ‖ be64(n)`, read half by half. -/
theorem nonceIsIvThenBigEndianCounter : Obligations.NonceIsIvThenBigEndianCounter := by
  unfold Obligations.NonceIsIvThenBigEndianCounter
  intro key iv n _
  refine ⟨joinHalves iv (be64 n), rfl, fun i => ⟨getElem_joinHalves_left iv _ i, ?_⟩⟩
  rw [getElem_joinHalves_right, toNat_getElem_be64]

end Sys2Proof.Machine
end

section
/-! ## The encoding (30_encoding.md)

A word is its three fields (`assemble_fields`), so the mask test of R99 says which fields are zero (`and_mask_eq_matchWord_iff`);
the opcode map and `commandOf` name the same opcodes and formats (`commandOf_map_encode`). `decode_cases` says once, from these,
what decoding a word can give, and the statements are read off it. -/

namespace Sys2Proof

/-! ### A word and its fields (R90, R97) -/

theorem shiftLeft_or_eq_add {m n k : ℕ} (h : n < 2 ^ k) : m <<< k ||| n = 2 ^ k * m + n := by
  rw [← Nat.shiftLeft_add_eq_or_of_lt h, Nat.shiftLeft_eq, Nat.mul_comm]

theorem toNat_assemble (o : BitVec 8) (a b : Slot) : (assemble o a b).toNat = 256 * o.toNat + 16 * a.val + b.val := by
  have ho : o.toNat * 256 < 65536 := by omega
  have ha : a.val * 16 < 65536 := by omega
  have hb : b.val < 65536 := by omega
  have hslots : a.val <<< 4 ||| b.val = 16 * a.val + b.val := shiftLeft_or_eq_add b.isLt
  have hword : o.toNat <<< 8 ||| (16 * a.val + b.val) = 256 * o.toNat + (16 * a.val + b.val) :=
    shiftLeft_or_eq_add (by omega)
  calc (assemble o a b).toNat
      = o.toNat <<< 8 ||| (a.val <<< 4 ||| b.val) := by
        simp [assemble, Nat.or_assoc, Nat.shiftLeft_eq, Nat.mod_eq_of_lt ho, Nat.mod_eq_of_lt ha, Nat.mod_eq_of_lt hb]
    _ = 256 * o.toNat + 16 * a.val + b.val := by rw [hslots, hword, Nat.add_assoc]

theorem toNat_opc (w : Word) : (Word.opc w).toNat = w.toNat / 256 := by
  have hw : w.toNat < 65536 := w.isLt
  rw [Word.opc, BitVec.extractLsb'_toNat, Nat.shiftRight_eq_div_pow]
  omega

theorem val_sa (w : Word) : (Word.sa w).val = w.toNat / 16 % 16 := by
  simp [Word.sa, Nat.shiftRight_eq_div_pow]

theorem val_sd (w : Word) : (Word.sd w).val = w.toNat % 16 := by
  simp [Word.sd]

@[simp] theorem opc_assemble (o : BitVec 8) (a b : Slot) : Word.opc (assemble o a b) = o := by
  apply BitVec.eq_of_toNat_eq
  rw [toNat_opc, toNat_assemble]
  omega

@[simp] theorem sa_assemble (o : BitVec 8) (a b : Slot) : Word.sa (assemble o a b) = a := by
  apply Fin.ext
  rw [val_sa, toNat_assemble]
  omega

@[simp] theorem sd_assemble (o : BitVec 8) (a b : Slot) : Word.sd (assemble o a b) = b := by
  apply Fin.ext
  rw [val_sd, toNat_assemble]
  omega

theorem assemble_fields (w : Word) : assemble (Word.opc w) (Word.sa w) (Word.sd w) = w := by
  apply BitVec.eq_of_toNat_eq
  rw [toNat_assemble, toNat_opc, val_sa, val_sd]
  omega

theorem word_eq_iff {w v : Word} :
    w = v ↔ Word.opc w = Word.opc v ∧ Word.sa w = Word.sa v ∧ Word.sd w = Word.sd v := by
  constructor
  · rintro rfl
    exact ⟨rfl, rfl, rfl⟩
  · rintro ⟨hopc, hsa, hsd⟩
    rw [← assemble_fields w, hopc, hsa, hsd, assemble_fields]

/-! ### Formats, masks and rows (R91, R93) -/

/-- Whether a format uses the field `SA` (R91). -/
def Format.usesSA : Format → Bool
  | .A | .AD => true
  | .N | .D => false

/-- Whether a format uses the field `SD` (R91). -/
def Format.usesSD : Format → Bool
  | .D | .AD => true
  | .N | .A => false

/-- The fields of `w` that the format does not use are zero (R91, R94 (b)). -/
def Format.UnusedZero (f : Format) (w : Word) : Prop :=
  (f.usesSA = false → Word.sa w = 0) ∧ (f.usesSD = false → Word.sd w = 0)

theorem Format.UnusedZero.sa_eq {f : Format} {w : Word} (h : f.UnusedZero w) :
    (if f.usesSA then Word.sa w else 0) = Word.sa w := by
  split
  · rfl
  · next hunused => exact (h.1 (Bool.eq_false_iff.mpr hunused)).symm

theorem Format.UnusedZero.sd_eq {f : Format} {w : Word} (h : f.UnusedZero w) :
    (if f.usesSD then Word.sd w else 0) = Word.sd w := by
  split
  · rfl
  · next hunused => exact (h.2 (Bool.eq_false_iff.mpr hunused)).symm

theorem Format.not_unusedZero_iff (f : Format) (w : Word) :
    ¬ f.UnusedZero w ↔ (f = .N ∨ f = .D) ∧ Word.sa w ≠ 0 ∨ (f = .N ∨ f = .A) ∧ Word.sd w ≠ 0 := by
  cases f <;> simp [Format.UnusedZero, Format.usesSA, Format.usesSD, imp_iff_not_or]

@[simp] theorem opc_and_mask (w : Word) (f : Format) : Word.opc (w &&& f.mask) = Word.opc w := by
  have hmask : f.mask.extractLsb' 8 8 = BitVec.allOnes 8 := by cases f <;> rfl
  rw [Word.opc, BitVec.extractLsb'_and, hmask, BitVec.and_allOnes, Word.opc]

@[simp] theorem sa_and_mask (w : Word) (f : Format) :
    Word.sa (w &&& f.mask) = if f.usesSA then 0 else Word.sa w := by
  have hmask : f.mask.extractLsb' 4 4 = if f.usesSA then 0 else BitVec.allOnes 4 := by cases f <;> rfl
  rw [Word.sa, BitVec.extractLsb'_and, hmask]
  split
  · rw [BitVec.ofNat_eq_ofNat, BitVec.and_zero]; rfl
  · rw [BitVec.and_allOnes]; rfl

@[simp] theorem sd_and_mask (w : Word) (f : Format) :
    Word.sd (w &&& f.mask) = if f.usesSD then 0 else Word.sd w := by
  have hmask : f.mask.extractLsb' 0 4 = if f.usesSD then 0 else BitVec.allOnes 4 := by cases f <;> rfl
  rw [Word.sd, BitVec.extractLsb'_and, hmask]
  split
  · rw [BitVec.ofNat_eq_ofNat, BitVec.and_zero]; rfl
  · rw [BitVec.and_allOnes]; rfl

theorem OpcodeRow.matchWord_eq_assemble (r : OpcodeRow) : r.matchWord = assemble r.opc 0 0 := by
  simp [OpcodeRow.matchWord, assemble]

theorem and_mask_eq_matchWord_iff (w : Word) (r : OpcodeRow) :
    w &&& r.format.mask = r.matchWord ↔ Word.opc w = r.opc ∧ r.format.UnusedZero w := by
  rw [word_eq_iff, r.matchWord_eq_assemble]
  simp [Format.UnusedZero]

theorem opcodes_nodup : (opcodeTable.map OpcodeRow.opc).Nodup := by decide

theorem length_unassigned_opcodes :
    ((List.range 256).filter fun n => opcodeTable.all fun r => r.opc.toNat != n).length = 227 := by decide +kernel

theorem row?_eq_none_iff (w : Word) : Word.row? w = none ↔ ∀ r ∈ opcodeTable, r.opc ≠ Word.opc w := by
  simp [Word.row?]

theorem row?_eq_some_iff (w : Word) (r : OpcodeRow) :
    Word.row? w = some r ↔ r ∈ opcodeTable ∧ r.opc = Word.opc w := by
  constructor
  · intro h
    exact ⟨List.mem_of_find?_eq_some h, by simpa using List.find?_some h⟩
  · rintro ⟨hmem, hopc⟩
    cases h : Word.row? w with
    | none => exact absurd hopc ((row?_eq_none_iff w).mp h r hmem)
    | some r' =>
      have hopc' : r'.opc = Word.opc w := by simpa using List.find?_some h
      have hsame : r' = r :=
        List.inj_on_of_nodup_map opcodes_nodup (List.mem_of_find?_eq_some h) hmem (hopc'.trans hopc.symm)
      rw [hsame]

theorem legal_iff (w : Word) :
    Word.legal w = true ↔ ∃ r, Word.row? w = some r ∧ r.format.UnusedZero w := by
  unfold Word.legal
  cases h : Word.row? w with
  | none => simp
  | some r =>
    have hopc : Word.opc w = r.opc := ((row?_eq_some_iff w r).mp h).2.symm
    simp [and_mask_eq_matchWord_iff, hopc]

/-! ### Commands and rows -/

theorem commandOf_map_encode {r : OpcodeRow} (h : r ∈ opcodeTable) (a b : Slot) :
    (commandOf r.opc.toNat a b).map encode =
      some (assemble r.opc (if r.format.usesSA then a else 0) (if r.format.usesSD then b else 0)) := by
  simp only [opcodeTable, List.cons_append, List.nil_append] at h
  fin_cases h <;> rfl

theorem commandOf_encode (i : Instr) :
    commandOf (Word.opc (encode i)).toNat (Word.sa (encode i)) (Word.sd (encode i)) = some i := by
  cases i <;> simp [encode, commandOf]

/-- The row of a word with no unused field set names a command, and the word is that command's. -/
theorem exists_command_of_row {w : Word} {r : OpcodeRow} (hrow : Word.row? w = some r) (hfields : r.format.UnusedZero w) :
    ∃ i, commandOf (Word.opc w).toNat (Word.sa w) (Word.sd w) = some i ∧ encode i = w := by
  obtain ⟨hmem, hopc⟩ := (row?_eq_some_iff w r).mp hrow
  have hmap := commandOf_map_encode hmem (Word.sa w) (Word.sd w)
  rw [hfields.sa_eq, hfields.sd_eq, hopc, assemble_fields] at hmap
  exact Option.map_eq_some_iff.mp hmap

theorem encode_legal : ∀ i : Instr, Word.legal (encode i) = true
  | .nop => Laws.EncodeLegal.nop
  | .aesenc sa => Laws.EncodeLegal.aesenc sa
  | .aesdec sa => Laws.EncodeLegal.aesdec sa
  | .reset => Laws.EncodeLegal.reset
  | .kload sd => Laws.EncodeLegal.kload sd
  | .kclear sd => Laws.EncodeLegal.kclear sd
  | .kwrap sa => Laws.EncodeLegal.kwrap sa
  | .kunwrap sa => Laws.EncodeLegal.kunwrap sa
  | .kunwrapk sa sd => Laws.EncodeLegal.kunwrapk sa sd
  | .cbcenc sa => Laws.EncodeLegal.cbcenc sa
  | .cbcdec sa => Laws.EncodeLegal.cbcdec sa
  | .attrenc => Laws.EncodeLegal.attrenc
  | .attrdec => Laws.EncodeLegal.attrdec
  | .nsplit => Laws.EncodeLegal.nsplit
  | .nunwrap sa => Laws.EncodeLegal.nunwrap sa
  | .nmerge => Laws.EncodeLegal.nmerge
  | .nread => Laws.EncodeLegal.nread
  | .nclear => Laws.EncodeLegal.nclear
  | .pwkdf sd => Laws.EncodeLegal.pwkdf sd
  | .sopene => Laws.EncodeLegal.sopene
  | .sopend => Laws.EncodeLegal.sopend
  | .sread => Laws.EncodeLegal.sread
  | .sgetkey => Laws.EncodeLegal.sgetkey
  | .sgetmac => Laws.EncodeLegal.sgetmac
  | .sclose => Laws.EncodeLegal.sclose
  | .sseek => Laws.EncodeLegal.sseek
  | .swrite => Laws.EncodeLegal.swrite
  | .bndnext => Laws.EncodeLegal.bndnext
  | .packnext => Laws.EncodeLegal.packnext

/-! ### Decoding (R94, R99) -/

/-- What decoding a word gives, and when: R94 (a), R94 (b), or the command of the row, whose word it is. -/
theorem decode_cases (w : Word) :
    (Word.row? w = none ∧ decode w = .error .unassignedOpcode) ∨
    (∃ r, Word.row? w = some r ∧ ¬ r.format.UnusedZero w ∧ decode w = .error .nonzeroUnusedField) ∨
    (∃ r i, Word.row? w = some r ∧ r.format.UnusedZero w ∧
      commandOf (Word.opc w).toNat (Word.sa w) (Word.sd w) = some i ∧ encode i = w ∧ decode w = .ok i) := by
  unfold decode
  cases hrow : Word.row? w with
  | none => exact .inl ⟨rfl, rfl⟩
  | some r =>
    have hopc : Word.opc w = r.opc := ((row?_eq_some_iff w r).mp hrow).2.symm
    have hmask : w &&& r.format.mask = r.matchWord ↔ r.format.UnusedZero w := by
      rw [and_mask_eq_matchWord_iff, and_iff_right hopc]
    by_cases hfields : r.format.UnusedZero w
    · obtain ⟨i, hcmd, hword⟩ := exists_command_of_row hrow hfields
      exact .inr (.inr ⟨r, i, rfl, hfields, hcmd, hword, by simp [hmask.mpr hfields, hcmd]⟩)
    · exact .inr (.inl ⟨r, rfl, hfields, by simp [mt hmask.mp hfields]⟩)

theorem decode_eq_unassignedOpcode_iff (w : Word) : decode w = .error .unassignedOpcode ↔ Word.row? w = none := by
  rcases decode_cases w with ⟨hrow, hd⟩ | ⟨r, hrow, _, hd⟩ | ⟨r, i, hrow, _, _, _, hd⟩
  · simp [hd, hrow]
  · simp [hd, hrow]
  · simp [hd, hrow]

theorem decode_eq_nonzeroUnusedField_iff (w : Word) :
    decode w = .error .nonzeroUnusedField ↔ ∃ r, Word.row? w = some r ∧ ¬ r.format.UnusedZero w := by
  rcases decode_cases w with ⟨hrow, hd⟩ | ⟨r, hrow, hfields, hd⟩ | ⟨r, i, hrow, hfields, _, _, hd⟩
  · simp [hd, hrow]
  · simp [hd, hrow, hfields]
  · simp [hd, hrow, hfields]

theorem encode_of_decode {w : Word} {i : Instr} (h : decode w = .ok i) : encode i = w := by
  rcases decode_cases w with ⟨_, hd⟩ | ⟨_, _, _, hd⟩ | ⟨_, j, _, _, _, hword, hd⟩
  · cases hd.symm.trans h
  · cases hd.symm.trans h
  · cases hd.symm.trans h
    exact hword

/-- The word of a command is legal, so it decodes, and to the one command its opcode and fields name. -/
theorem decode_encode (i : Instr) : decode (encode i) = .ok i := by
  obtain ⟨r, hrow, hfields⟩ := (legal_iff _).mp (encode_legal i)
  rcases decode_cases (encode i) with ⟨hnone, _⟩ | ⟨r', hrow', hnot, _⟩ | ⟨_, j, _, _, hcmd, _, hd⟩
  · cases hnone.symm.trans hrow
  · obtain rfl : r = r' := Option.some.inj (hrow.symm.trans hrow')
    exact absurd hfields hnot
  · cases hcmd.symm.trans (commandOf_encode i)
    exact hd

/-- Settles O1: a word and its command determine each other, `decode_encode` and `encode_of_decode`. -/
theorem decodeAndEncodeAgree : Obligations.DecodeAndEncodeAgree := by
  unfold Obligations.DecodeAndEncodeAgree
  exact ⟨decode_encode, fun _ _ => encode_of_decode⟩

theorem executeWord_of_decode_error {w : Word} {e : Illegal} (s : Machine.State) (h : decode w = .error e) :
    Machine.executeWord w s = .next { s with err := .illegal } := by
  simp only [Machine.executeWord, h, Machine.State.raise_eq]

/-- Settles O2: clause (a) is a missing row, clause (b) a row with a field unused by its format that is not zero. -/
theorem illegalWordsRaiseIllegalOnly : Obligations.IllegalWordsRaiseIllegalOnly := by
  unfold Obligations.IllegalWordsRaiseIllegalOnly
  refine ⟨fun w => ?_, fun w => ?_, fun _ s _ h => executeWord_of_decode_error s h, length_unassigned_opcodes⟩
  · rw [decode_eq_unassignedOpcode_iff, row?_eq_none_iff]
  · simp only [decode_eq_nonzeroUnusedField_iff, row?_eq_some_iff, Format.not_unusedZero_iff, and_assoc]

/-- Settles O3: twelve closed evaluations of the decoder. -/
theorem writtenOutWordsDecode : Obligations.WrittenOutWordsDecode := by
  unfold Obligations.WrittenOutWordsDecode
  decide

end Sys2Proof
end

section
/-! ## The byte field (R123), the S-box (R125, R126)

`gmul` is additive in its first argument and commutes with `xtime` by its definition; `gmul_right_comm` turns these two facts into
the laws of a commutative ring, from which inverses are unique. -/

namespace Sys2Proof.Machine

/-! ### The arithmetic of R123 -/

theorem xtime_zero : xtime 0 = 0 := by decide

theorem xtime_xor (a b : Byte) : xtime (a ^^^ b) = xtime a ^^^ xtime b := by
  have hcarry (p q : Bool) : (if (p ^^ q) = true then 0x1B else 0 : Byte) =
      (if p then 0x1B else 0) ^^^ (if q then 0x1B else 0) := by
    cases p <;> cases q <;> rfl
  simp only [xtime, BitVec.shiftLeft_xor_distrib, BitVec.getLsbD_xor, hcarry]
  ac_rfl

theorem gmulBits_xor_left (n : Nat) (a a' b : Byte) : gmulBits n (a ^^^ a') b = gmulBits n a b ^^^ gmulBits n a' b := by
  induction n generalizing a a' b with
  | zero => simp [gmulBits]
  | succ n ih =>
    simp only [gmulBits, xtime_xor, ih]
    split
    · ac_rfl
    · simp only [BitVec.ofNat_eq_ofNat, BitVec.zero_xor]

theorem gmulBits_xtime (n : Nat) (a b : Byte) : gmulBits n (xtime a) b = xtime (gmulBits n a b) := by
  induction n generalizing a b with
  | zero => exact xtime_zero.symm
  | succ n ih =>
    simp only [gmulBits, xtime_xor, ih]
    split <;> rfl

theorem gmul_xor_left (a a' b : Byte) : gmul (a ^^^ a') b = gmul a b ^^^ gmul a' b := gmulBits_xor_left 8 a a' b

theorem gmul_xtime_left (a b : Byte) : gmul (xtime a) b = xtime (gmul a b) := gmulBits_xtime 8 a b

theorem zero_gmul (b : Byte) : gmul 0 b = 0 := by
  simpa using gmul_xor_left 0 0 b

theorem one_gmul (b : Byte) : gmul 1 b = b := by
  revert b
  decide +kernel

/-- Both sides are the sum of `xtime^i (c • b)` over the bits `i` of `a`. -/
theorem gmul_gmulBits (n : Nat) (c a b : Byte) : gmul (gmulBits n c a) b = gmulBits n (gmul c b) a := by
  induction n generalizing c a with
  | zero => exact zero_gmul b
  | succ n ih =>
    simp only [gmulBits, gmul_xor_left, ih, gmul_xtime_left]
    split
    · rfl
    · rw [zero_gmul]

theorem gmul_right_comm (c a b : Byte) : gmul (gmul c a) b = gmul (gmul c b) a := gmul_gmulBits 8 c a b

theorem gmul_comm (a b : Byte) : gmul a b = gmul b a := by
  simpa only [one_gmul] using gmul_right_comm 1 a b

theorem gmul_assoc (a b c : Byte) : gmul (gmul a b) c = gmul a (gmul b c) := by
  rw [gmul_comm a b, gmul_right_comm, gmul_comm]

theorem gmul_xor_right (a b b' : Byte) : gmul a (b ^^^ b') = gmul a b ^^^ gmul a b' := by
  rw [gmul_comm a, gmul_xor_left, gmul_comm b, gmul_comm b']

/-! ### Inverses -/

/-- The affine map of R125. -/
def sboxAffine (b : Byte) : Byte :=
  b ^^^ b.rotateLeft 1 ^^^ b.rotateLeft 2 ^^^ b.rotateLeft 3 ^^^ b.rotateLeft 4 ^^^ 0x63

/-- The byte whose image under the affine map of R125 the S-box has for `a` (`sboxAffine_fieldInv`): the field inverse of `a`. -/
def fieldInv (a : Byte) : Byte :=
  (sbox a).rotateLeft 1 ^^^ (sbox a).rotateLeft 3 ^^^ (sbox a).rotateLeft 6 ^^^ 0x05

theorem sboxAffine_fieldInv (a : Byte) : sboxAffine (fieldInv a) = sbox a := by
  revert a
  decide +kernel

theorem fieldInv_zero : fieldInv 0 = 0 := by decide

theorem gmul_fieldInv (a : Byte) (h : a ≠ 0) : gmul a (fieldInv a) = 1 := by
  revert a
  decide +kernel

theorem gmul_inverse_unique {a b c : Byte} (hb : gmul a b = 1) (hc : gmul a c = 1) : b = c :=
  calc b = gmul (gmul a c) b := by rw [hc, one_gmul]
    _ = gmul (gmul a b) c := gmul_right_comm a c b
    _ = c := by rw [hb, one_gmul]

theorem eq_fieldInv_of_gmul_eq_one {a b : Byte} (h : gmul a b = 1) : b = fieldInv a := by
  have ha : a ≠ 0 := by
    rintro rfl
    rw [zero_gmul] at h
    exact absurd h (by decide)
  exact gmul_inverse_unique h (gmul_fieldInv a ha)

theorem invSbox_sbox (a : Byte) : invSbox (sbox a) = a := by
  revert a
  decide +kernel

theorem sbox_invSbox (a : Byte) : sbox (invSbox a) = a := by
  revert a
  decide +kernel

/-- Settles O16: the table is the affine image of `fieldInv` (256 entries), and `fieldInv` is the one inverse there is. -/
theorem sboxTableIsTheFieldFormula : Obligations.SboxTableIsTheFieldFormula := by
  unfold Obligations.SboxTableIsTheFieldFormula
  refine ⟨fun a b h => ?formula, fun a ha => ⟨fieldInv a, gmul_fieldInv a ha⟩,
    fun a => ⟨invSbox_sbox a, sbox_invSbox a⟩⟩
  case formula =>
    have hb : b = fieldInv a := by
      rcases h with ⟨rfl, rfl⟩ | h
      · exact fieldInv_zero.symm
      · exact eq_fieldInv_of_gmul_eq_one h
    rw [hb]
    exact (sboxAffine_fieldInv a).symm

end Sys2Proof.Machine
end

section
/-! ## The block cipher (R127 to R134)

Each round function has its inverse, stated as an equivalence `f x = y ↔ x = g y`. R134 undoes R133 round by round
(`shiftedRound_eq_iff`). -/

namespace Sys2Proof.Machine

/-! ### Each round function and its inverse -/

theorem addRoundKey_involutive (rk : Block) : Function.Involutive (addRoundKey · rk) := by
  intro st
  ext i hi : 1
  simp only [addRoundKey, getElem_xorBytes, BitVec.xor_assoc, BitVec.xor_self, BitVec.xor_zero]

theorem invSubBytes_subBytes (st : Block) : invSubBytes (subBytes st) = st := by
  ext i hi : 1
  simp [invSubBytes, subBytes, invSbox_sbox]

theorem subBytes_invSubBytes (st : Block) : subBytes (invSubBytes st) = st := by
  ext i hi : 1
  simp [invSubBytes, subBytes, sbox_invSbox]

theorem invShiftRows_shiftRows (st : Block) : invShiftRows (shiftRows st) = st := by
  ext i hi : 1
  simp only [invShiftRows, shiftRows, Vector.getElem_ofFn]
  congr 1
  omega

theorem shiftRows_invShiftRows (st : Block) : shiftRows (invShiftRows st) = st := by
  ext i hi : 1
  simp only [invShiftRows, shiftRows, Vector.getElem_ofFn]
  congr 1
  omega

/-- The byte `j` rows below byte `i` in its column, rows mod 4 (R129). -/
def columnByte (st : Block) (i : Fin 16) (j : Nat) : Byte := st[4 * (i.val / 4) + (i.val + j) % 4]'(by omega)

theorem columnByte_zero (st : Block) (i : Fin 16) : columnByte st i 0 = st[i] := by
  simp only [columnByte, Fin.getElem_fin]
  congr 1
  omega

theorem columnByte_add_four (st : Block) (i : Fin 16) (j : Nat) : columnByte st i (j + 4) = columnByte st i j := by
  simp only [columnByte]
  congr 1
  omega

theorem columnByte_mixWith (m0 m1 m2 m3 : Byte) (st : Block) (i : Fin 16) (j : Nat) :
    columnByte (mixWith m0 m1 m2 m3 st) i j =
      gmul m0 (columnByte st i j) ^^^ gmul m1 (columnByte st i (j + 1)) ^^^ gmul m2 (columnByte st i (j + 2)) ^^^
        gmul m3 (columnByte st i (j + 3)) := by
  have hrow (k : Nat) : 4 * ((4 * (i.val / 4) + (i.val + j) % 4) / 4) + (4 * (i.val / 4) + (i.val + j) % 4 + k) % 4 =
      4 * (i.val / 4) + (i.val + (j + k)) % 4 := by omega
  have hrow_zero := hrow 0
  simp only [Nat.add_zero] at hrow_zero
  simp only [columnByte, mixWith, Vector.getElem_ofFn, Nat.add_zero, hrow_zero, hrow]

theorem block_ext_columnByte {st st' : Block} (h : ∀ i, columnByte st i 0 = columnByte st' i 0) : st = st' := by
  ext i hi : 1
  have hbyte := h ⟨i, hi⟩
  rwa [columnByte_zero, columnByte_zero] at hbyte

/-- The product of two circulant matrices is circulant, its first row the cyclic convolution of theirs. -/
theorem mixWith_mixWith (m0 m1 m2 m3 n0 n1 n2 n3 : Byte) (st : Block) :
    mixWith m0 m1 m2 m3 (mixWith n0 n1 n2 n3 st) =
      mixWith (gmul m0 n0 ^^^ gmul m1 n3 ^^^ gmul m2 n2 ^^^ gmul m3 n1) (gmul m0 n1 ^^^ gmul m1 n0 ^^^ gmul m2 n3 ^^^ gmul m3 n2)
        (gmul m0 n2 ^^^ gmul m1 n1 ^^^ gmul m2 n0 ^^^ gmul m3 n3) (gmul m0 n3 ^^^ gmul m1 n2 ^^^ gmul m2 n1 ^^^ gmul m3 n0)
        st := by
  refine block_ext_columnByte fun i => ?_
  have hfour : columnByte st i 4 = columnByte st i 0 := columnByte_add_four st i 0
  have hfive : columnByte st i 5 = columnByte st i 1 := columnByte_add_four st i 1
  have hsix : columnByte st i 6 = columnByte st i 2 := columnByte_add_four st i 2
  simp only [columnByte_mixWith, gmul_xor_left, gmul_xor_right, gmul_assoc, Nat.reduceAdd, hfour, hfive, hsix]
  ac_rfl

theorem mixWith_identity (st : Block) : mixWith 1 0 0 0 st = st :=
  block_ext_columnByte fun i => by
    rw [columnByte_mixWith, one_gmul, zero_gmul, zero_gmul, zero_gmul]
    simp

/-- The row `0E 0B 0D 09` times the row `02 03 01 01` evaluates to `01 00 00 00` in the field. -/
theorem invMixColumns_mixColumns (st : Block) : invMixColumns (mixColumns st) = st := by
  rw [invMixColumns, mixColumns, mixWith_mixWith]
  exact mixWith_identity st

theorem mixColumns_invMixColumns (st : Block) : mixColumns (invMixColumns st) = st := by
  rw [invMixColumns, mixColumns, mixWith_mixWith]
  exact mixWith_identity st

/-! ### The equations a round is undone by -/

theorem addRoundKey_eq_iff {st rk x : Block} : addRoundKey st rk = x ↔ st = addRoundKey x rk :=
  (addRoundKey_involutive rk).eq_iff

theorem subBytes_eq_iff {st x : Block} : subBytes st = x ↔ st = invSubBytes x :=
  (Equiv.eq_symm_apply ⟨subBytes, invSubBytes, invSubBytes_subBytes, subBytes_invSubBytes⟩).symm

theorem shiftRows_eq_iff {st x : Block} : shiftRows st = x ↔ st = invShiftRows x :=
  (Equiv.eq_symm_apply ⟨shiftRows, invShiftRows, invShiftRows_shiftRows, shiftRows_invShiftRows⟩).symm

theorem mixColumns_eq_iff {st x : Block} : mixColumns st = x ↔ st = invMixColumns x :=
  (Equiv.eq_symm_apply ⟨mixColumns, invMixColumns, invMixColumns_mixColumns, mixColumns_invMixColumns⟩).symm

/-! ### The rounds -/

/-- `r` rounds of R133, seen after the next `SubBytes` and `ShiftRows`, reach `st` exactly when `r` inverse rounds of R134 lead
from `st` back to the value so seen after no round. -/
theorem shiftedRound_eq_iff (k b st : Block) (r : Nat) :
    shiftRows (subBytes (encRounds k b r)) = st ↔ shiftRows (subBytes (encRounds k b 0)) = decRounds k r st := by
  induction r generalizing st with
  | zero => rfl
  | succ r ih =>
    calc shiftRows (subBytes (encRounds k b (r + 1))) = st
        ↔ encRounds k b (r + 1) = invSubBytes (invShiftRows st) := by rw [shiftRows_eq_iff, subBytes_eq_iff]
      _ ↔ shiftRows (subBytes (encRounds k b r)) =
            invMixColumns (addRoundKey (invSubBytes (invShiftRows st)) (roundKey k (r + 1))) := by
          rw [encRounds, addRoundKey_eq_iff, mixColumns_eq_iff]
      _ ↔ shiftRows (subBytes (encRounds k b 0)) = decRounds k (r + 1) st := ih _

theorem aesEnc_eq_iff {k b c : Block} : aesEnc k b = c ↔ b = aesDec k c := by
  rw [aesEnc, addRoundKey_eq_iff, shiftedRound_eq_iff, shiftRows_eq_iff, subBytes_eq_iff, encRounds, addRoundKey_eq_iff, aesDec]

theorem aesDec_aesEnc (k b : Block) : aesDec k (aesEnc k b) = b := (aesEnc_eq_iff.mp rfl).symm

theorem aesEnc_aesDec (k c : Block) : aesEnc k (aesDec k c) = c := aesEnc_eq_iff.mpr rfl

/-- Settles O15: `aesEnc_eq_iff`, read in both directions. -/
theorem aesEncryptionAndDecryptionAreInverse : Obligations.AesEncryptionAndDecryptionAreInverse := by
  unfold Obligations.AesEncryptionAndDecryptionAreInverse
  exact fun k b => ⟨aesDec_aesEnc k b, aesEnc_aesDec k b⟩

end Sys2Proof.Machine
end

section
/-! ## The commands under a slot key (R10, R65, R92), and `AESENC` and `AESDEC` (R140, R141) -/

namespace Sys2Proof

/-- The word of a command that names a source slot only (format A of R91). -/
theorem assemble_sa (o : BitVec 8) (sa : Slot) :
    assemble o sa 0 = o.zeroExtend 16 <<< 8 ||| BitVec.ofNat 16 sa <<< 4 := by
  have hsa : (BitVec.ofFin sa : BitVec 4).zeroExtend 16 = BitVec.ofNat 16 sa := by
    apply BitVec.eq_of_toNat_eq
    simp
  simp [assemble, hsa]

namespace Machine

/-- `OUT(v)` and the end of the command are all that a command with output `v` does (R10, R310). -/
theorem givesOutput_out (s : State) {v : List Byte} : GivesOutput (.next { s.out v with err := .ok }) s v := by
  refine ⟨_, rfl, rfl, fun j hj => ?_, fun a ha => ?_⟩
  · exact (s.read_out v j).trans (if_pos hj)
  · exact (s.read_out v a).trans (if_neg (Nat.not_lt.mpr ha))

theorem State.operand_of_holds {s : State} {v : List Byte} (h : s.holds v) : s.operand = v := by
  obtain ⟨hlen, hbytes⟩ := h
  refine List.ext_getElem (by rw [State.length_operand, hlen]) fun j hj hj' => ?_
  rw [← List.getD_eq_getElem _ 0 hj, ← List.getD_eq_getElem _ 0 hj', s.getD_operand j (hlen ▸ hj'), hbytes j hj']

section
variable {lenOk : BitVec 16 → Bool} {f : Block → List Byte → List Byte} {sa : Slot} {s : State}

theorem slotCommand_of_valid {v : List Byte} (hv : s.holds v) (hlen : lenOk s.ilen = true) (hkv : s.kv[sa] = true) :
    GivesOutput (slotCommand lenOk f sa s) s (f s.k[sa] v) := by
  rcases slotCommand_cases lenOk f sa s with ⟨hbad, _⟩ | ⟨_, hinvalid, _⟩ | ⟨_, _, heq⟩
  · cases hbad.symm.trans hlen
  · cases hinvalid.symm.trans hkv
  · rw [heq, State.operand_of_holds hv]
    exact givesOutput_out s

theorem slotCommand_of_bad_length (hlen : lenOk s.ilen = false) :
    slotCommand lenOk f sa s = .next { s with err := .badLen } := by
  rcases slotCommand_cases lenOk f sa s with ⟨_, heq⟩ | ⟨hgood, _⟩ | ⟨hgood, _⟩
  · exact heq
  · cases hgood.symm.trans hlen
  · cases hgood.symm.trans hlen

theorem slotCommand_of_invalid_slot (hlen : lenOk s.ilen = true) (hkv : s.kv[sa] = false) :
    slotCommand lenOk f sa s = .next { s with err := .keySlot } := by
  rcases slotCommand_cases lenOk f sa s with ⟨hbad, _⟩ | ⟨_, _, heq⟩ | ⟨_, hvalid, _⟩
  · cases hbad.symm.trans hlen
  · exact heq
  · cases hvalid.symm.trans hkv

end

theorem encode_aesenc (sa : Slot) : encode (.aesenc sa) = 0x0100 ||| BitVec.ofNat 16 sa <<< 4 := by
  rw [encode, assemble_sa]
  rfl

theorem encode_aesdec (sa : Slot) : encode (.aesdec sa) = 0x0200 ||| BitVec.ofNat 16 sa <<< 4 := by
  rw [encode, assemble_sa]
  rfl

theorem oneBlockLen_iff (n : BitVec 16) : oneBlockLen n = true ↔ n = 16 := by
  rw [oneBlockLen, beq_iff_eq, ← BitVec.toNat_inj]
  rfl

theorem oneBlockLen_of_holds {s : State} {b : Block} (h : s.holds b.toList) : oneBlockLen s.ilen = true := by
  obtain ⟨hlen, _⟩ := h
  rw [oneBlockLen, hlen, Vector.length_toList, beq_self_eq_true]

/-- A cipher under `key`, on the one block an operand of 16 bytes is. -/
def oneBlock (cipher : Block → Block → Block) (key : Block) (d : List Byte) : List Byte :=
  (cipher key (sliceBytes 16 0 d)).toList

theorem oneBlock_toList (cipher : Block → Block → Block) (key b : Block) :
    oneBlock cipher key b.toList = (cipher key b).toList := by
  rw [oneBlock, sliceBytes_toList]

theorem exec_aesenc (sa : Slot) (s : State) : exec (.aesenc sa) s = slotCommand oneBlockLen (oneBlock aesEnc) sa s := rfl

theorem exec_aesdec (sa : Slot) (s : State) : exec (.aesdec sa) s = slotCommand oneBlockLen (oneBlock aesDec) sa s := rfl

section
variable (cipher : Block → Block → Block) {sa : Slot} {s : State}

theorem oneBlockCommand_of_valid {b : Block} (hb : s.holds b.toList) (hkv : s.kv[sa] = true) :
    GivesOutput (slotCommand oneBlockLen (oneBlock cipher) sa s) s (cipher s.k[sa] b).toList := by
  rw [← oneBlock_toList]
  exact slotCommand_of_valid hb (oneBlockLen_of_holds hb) hkv

theorem oneBlockCommand_errors :
    (s.ilen ≠ 16 → slotCommand oneBlockLen (oneBlock cipher) sa s = .next { s with err := .badLen }) ∧
    (s.ilen = 16 → s.kv[sa] = false →
      slotCommand oneBlockLen (oneBlock cipher) sa s = .next { s with err := .keySlot }) :=
  ⟨fun hlen => slotCommand_of_bad_length (Bool.eq_false_iff.mpr (mt (oneBlockLen_iff _).mp hlen)),
    fun hlen => slotCommand_of_invalid_slot ((oneBlockLen_iff _).mpr hlen)⟩

end

/-- Settles O17: both are the command under a slot key on one block, with `AES_enc` and with `AES_dec`. -/
theorem blockCommandsOutputTheCipher : Obligations.BlockCommandsOutputTheCipher := by
  unfold Obligations.BlockCommandsOutputTheCipher
  refine fun sa s => ⟨encode_aesenc sa, encode_aesdec sa, fun b hb hkv => ?output, fun i hi => ?errors⟩
  case output =>
    rw [exec_aesenc, exec_aesdec]
    exact ⟨oneBlockCommand_of_valid aesEnc hb hkv, oneBlockCommand_of_valid aesDec hb hkv⟩
  case errors =>
    simp only [List.mem_cons, List.not_mem_nil, or_false] at hi
    rcases hi with rfl | rfl
    · rw [exec_aesenc]
      exact oneBlockCommand_errors aesEnc
    · rw [exec_aesdec]
      exact oneBlockCommand_errors aesDec

end Machine
end Sys2Proof
end

section
/-! ## Byte strings as lists of blocks (R8, R162, R163)

The functions of 41_key_wrap_cbc.md cut a byte string into 16-byte slices; `blockBytes` puts blocks together. Every whole number
of blocks is a `blockBytes` (`exists_blockBytes_eq`), so what those functions do is said once, on `blockBytes`. -/

namespace Sys2Proof.Machine

theorem sliceBytes_append_left {n : Nat} (v : Bytes n) (l : List Byte) : sliceBytes n 0 (v.toList ++ l) = v := by
  ext i h : 1
  simp [List.getD, List.getElem?_append, h]

theorem sliceBytes_append_right {m : Nat} (n off : Nat) (v : Bytes m) (l : List Byte) :
    sliceBytes n (m + off) (v.toList ++ l) = sliceBytes n off l := by
  ext i h : 1
  simp [List.getD, List.getElem?_append, Nat.add_assoc]

theorem toList_sliceBytes {n : Nat} {l : List Byte} (h : n ≤ l.length) : (sliceBytes n 0 l).toList = l.take n := by
  refine List.ext_getElem (by simp [h]) fun i hi _ => ?_
  have hi' : i < n := by simpa using hi
  simp [List.getD, hi'.trans_le h]

theorem blockBytes_cons (b : Block) (bs : List Block) : blockBytes (b :: bs) = b.toList ++ blockBytes bs := rfl

theorem length_blockBytes (bs : List Block) : (blockBytes bs).length = 16 * bs.length := by
  simp [blockBytes, Nat.mul_comm]

theorem drop_blockBytes_cons (b : Block) (bs : List Block) : (blockBytes (b :: bs)).drop 16 = blockBytes bs := by
  simp [blockBytes_cons]

theorem exists_blockBytes_eq {m : Nat} {d : List Byte} (h : d.length = 16 * m) :
    ∃ bs : List Block, bs.length = m ∧ blockBytes bs = d := by
  induction m generalizing d with
  | zero => exact ⟨[], rfl, (List.length_eq_zero_iff.mp h).symm⟩
  | succ m ih =>
    obtain ⟨bs, hlen, hbytes⟩ := ih (d := d.drop 16) (by rw [List.length_drop]; omega)
    refine ⟨sliceBytes 16 0 d :: bs, by rw [List.length_cons, hlen], ?_⟩
    rw [blockBytes_cons, hbytes, toList_sliceBytes (by omega), List.take_append_drop]

theorem xorBytes_zeros {n : Nat} (a : Bytes n) : xorBytes a (zeros n) = a := by
  ext i h : 1
  rw [getElem_xorBytes, getElem_zeros]
  exact BitVec.xor_zero

theorem xorBytes_xorBytes_cancel {n : Nat} (a b : Bytes n) : xorBytes (xorBytes a b) b = a := by
  ext i h : 1
  rw [getElem_xorBytes, getElem_xorBytes, BitVec.xor_assoc, BitVec.xor_self, BitVec.xor_zero]

end Sys2Proof.Machine
end

section
/-! ## Key wrapping (R160, R161): `KWRAP`, `KUNWRAP`, `KUNWRAPK` (R164 to R166) -/

namespace Sys2Proof

/-- The word of a command that names both slots (format AD of R91). -/
theorem assemble_sa_sd (o : BitVec 8) (sa sd : Slot) :
    assemble o sa sd = o.zeroExtend 16 <<< 8 ||| BitVec.ofNat 16 sa <<< 4 ||| BitVec.ofNat 16 sd := by
  have hsd : (BitVec.ofFin sd : BitVec 4).zeroExtend 16 = BitVec.ofNat 16 sd := by
    apply BitVec.eq_of_toNat_eq
    simp
  rw [← assemble_sa]
  simp [assemble, hsd]

namespace Machine

theorem perBlock_one (f : Block → Block) (b : Block) : perBlock f b.toList = (f b).toList := by
  rw [perBlock, if_neg (by simp), sliceBytes_toList]

theorem perBlock_two (f : Block → Block) (b c : Block) :
    perBlock f (b.toList ++ c.toList) = (f b).toList ++ (f c).toList := by
  have hc : sliceBytes 16 16 (b.toList ++ c.toList) = c :=
    (sliceBytes_append_right 16 0 b c.toList).trans (sliceBytes_toList c)
  rw [perBlock, if_pos (by simp), sliceBytes_append_left, hc]

/-- A string of 16 or 32 bytes is one block or two. -/
theorem eq_one_or_two_blocks {d : List Byte} (h : d.length = 16 ∨ d.length = 32) :
    (∃ b : Block, d = b.toList) ∨ ∃ b c : Block, d = b.toList ++ c.toList := by
  rcases h with h | h
  · obtain ⟨bs, hlen, rfl⟩ := exists_blockBytes_eq (m := 1) h
    obtain ⟨b, rfl⟩ := List.length_eq_one_iff.mp hlen
    exact .inl ⟨b, by simp [blockBytes]⟩
  · obtain ⟨bs, hlen, rfl⟩ := exists_blockBytes_eq (m := 2) h
    obtain ⟨b, c, rfl⟩ := List.length_eq_two.mp hlen
    exact .inr ⟨b, c, by simp [blockBytes]⟩

theorem perBlock_perBlock {f g : Block → Block} (hfg : Function.LeftInverse f g) {d : List Byte}
    (h : d.length = 16 ∨ d.length = 32) : perBlock f (perBlock g d) = d := by
  rcases eq_one_or_two_blocks h with ⟨b, rfl⟩ | ⟨b, c, rfl⟩
  · rw [perBlock_one, perBlock_one, hfg]
  · rw [perBlock_two, perBlock_two, hfg, hfg]

theorem kunwrap_kwrap (k : Block) {d : List Byte} (h : d.length = 16 ∨ d.length = 32) : kunwrap k (kwrap k d) = d :=
  perBlock_perBlock (aesDec_aesEnc k) h

theorem kwrap_kunwrap (k : Block) {d : List Byte} (h : d.length = 16 ∨ d.length = 32) : kwrap k (kunwrap k d) = d :=
  perBlock_perBlock (aesEnc_aesDec k) h

/-! ### `KWRAP` and `KUNWRAP` -/

theorem keyLen_iff (n : BitVec 16) : keyLen n = true ↔ n = 16 ∨ n = 32 := by
  rw [keyLen, Bool.or_eq_true, beq_iff_eq, beq_iff_eq, ← BitVec.toNat_inj, ← BitVec.toNat_inj]
  rfl

theorem keyLen_of_holds {s : State} {v : List Byte} (hv : s.holds v) (h : v.length = 16 ∨ v.length = 32) :
    keyLen s.ilen = true := by
  obtain ⟨hlen, -⟩ := hv
  rw [← hlen] at h
  simpa [keyLen] using h

theorem exec_kwrap (sa : Slot) (s : State) :
    exec (.kwrap sa) s = slotCommand keyLen (fun key => perBlock (aesEnc key)) sa s := rfl

theorem exec_kunwrap (sa : Slot) (s : State) :
    exec (.kunwrap sa) s = slotCommand keyLen (fun key => perBlock (aesDec key)) sa s := rfl

section
variable (cipher : Block → Block → Block) {sa : Slot} {s : State}

theorem keyWrapCommand_of_valid (hkv : s.kv[sa] = true) (b c : Block) :
    (s.holds b.toList →
      GivesOutput (slotCommand keyLen (fun key => perBlock (cipher key)) sa s) s (cipher s.k[sa] b).toList) ∧
    (s.holds (b.toList ++ c.toList) →
      GivesOutput (slotCommand keyLen (fun key => perBlock (cipher key)) sa s) s
        ((cipher s.k[sa] b).toList ++ (cipher s.k[sa] c).toList)) := by
  constructor
  · intro hb
    rw [← perBlock_one]
    exact slotCommand_of_valid hb (keyLen_of_holds hb (by simp)) hkv
  · intro hbc
    rw [← perBlock_two]
    exact slotCommand_of_valid hbc (keyLen_of_holds hbc (by simp)) hkv

theorem keyWrapCommand_errors (f : Block → List Byte → List Byte) :
    (s.ilen ≠ 16 → s.ilen ≠ 32 → slotCommand keyLen f sa s = .next { s with err := .badLen }) ∧
    (s.ilen = 16 ∨ s.ilen = 32 → s.kv[sa] = false → slotCommand keyLen f sa s = .next { s with err := .keySlot }) :=
  ⟨fun h16 h32 => slotCommand_of_bad_length (Bool.eq_false_iff.mpr (mt (keyLen_iff _).mp (not_or.mpr ⟨h16, h32⟩))),
    fun hlen => slotCommand_of_invalid_slot ((keyLen_iff _).mpr hlen)⟩

end

/-- Settles O18: both are the command under a slot key on one block or two, with `AES_enc` and with `AES_dec`. -/
theorem keyWrapCommandsTransformEachBlock : Obligations.KeyWrapCommandsTransformEachBlock := by
  unfold Obligations.KeyWrapCommandsTransformEachBlock
  refine fun sa s => ⟨assemble_sa 0x20 sa, assemble_sa 0x21 sa, fun hkv b c => ?output, fun i hi => ?errors⟩
  case output =>
    obtain ⟨hwrapOne, hwrapTwo⟩ := keyWrapCommand_of_valid aesEnc hkv b c
    obtain ⟨hunwrapOne, hunwrapTwo⟩ := keyWrapCommand_of_valid aesDec hkv b c
    rw [exec_kwrap, exec_kunwrap]
    exact ⟨fun hb => ⟨hwrapOne hb, hunwrapOne hb⟩, fun hbc => ⟨hwrapTwo hbc, hunwrapTwo hbc⟩⟩
  case errors =>
    simp only [List.mem_cons, List.not_mem_nil, or_false] at hi
    rcases hi with rfl | rfl
    · exact keyWrapCommand_errors kwrap
    · exact keyWrapCommand_errors kunwrap

/-! ### `KUNWRAPK` -/

/-- Everything `KUNWRAPK` can do (R166): a wrong length, an invalid source slot, or the slot write. -/
theorem execKunwrapk_cases (sa sd : Slot) (s : State) :
    (s.ilen ≠ 16 ∧ execKunwrapk sa sd s = .next { s with err := .badLen }) ∨
    (s.ilen = 16 ∧ s.kv[sa] = false ∧ execKunwrapk sa sd s = .next { s with err := .keySlot }) ∨
    (s.ilen = 16 ∧ s.kv[sa] = true ∧
      execKunwrapk sa sd s = .next { s.setSlot sd (aesDec s.k[sa] (sliceBytes 16 0 s.operand)) with err := .ok }) := by
  unfold execKunwrapk
  by_cases hlen : oneBlockLen s.ilen = true
  · rw [if_pos hlen]
    cases hkv : s.kv[sa]
    · exact .inr (.inl ⟨(oneBlockLen_iff _).mp hlen, rfl, by simp [State.slotKey?_eq_none.mpr hkv]⟩)
    · exact .inr (.inr ⟨(oneBlockLen_iff _).mp hlen, rfl, by simp [State.slotKey?_eq_some.mpr ⟨hkv, rfl⟩]⟩)
  · exact .inl ⟨mt (oneBlockLen_iff _).mpr hlen, by rw [if_neg hlen]; rfl⟩

theorem State.setSlot_self (s : State) (sd : Slot) (key : Block) :
    (s.setSlot sd key).k[sd] = key ∧ (s.setSlot sd key).kv[sd] = true := by
  simp

theorem State.setSlot_other (s : State) {sd j : Slot} (key : Block) (h : j ≠ sd) :
    (s.setSlot sd key).k[j] = s.k[j] ∧ (s.setSlot sd key).kv[j] = s.kv[j] := by
  have hval : (sd : Nat) ≠ j := fun heq => h (Fin.ext heq.symm)
  simp [hval]

/-- Settles O20: the key is computed from the state before the one slot write. -/
theorem kunwrapkFillsTheDestinationSlot : Obligations.KunwrapkFillsTheDestinationSlot := by
  unfold Obligations.KunwrapkFillsTheDestinationSlot
  refine fun sa sd s => ⟨assemble_sa_sd 0x22 sa sd, fun b hb hkv => ?unwrapped, ?errors⟩
  case unwrapped =>
    have hlen : s.ilen = 16 := (oneBlockLen_iff _).mp (oneBlockLen_of_holds hb)
    rcases execKunwrapk_cases sa sd s with ⟨hbad, _⟩ | ⟨_, hinvalid, _⟩ | ⟨_, _, heq⟩
    · exact absurd hlen hbad
    · cases hinvalid.symm.trans hkv
    · rw [State.operand_of_holds hb, sliceBytes_toList] at heq
      obtain ⟨hkey, hvalid⟩ := s.setSlot_self sd (aesDec s.k[sa] b)
      exact ⟨_, heq, rfl, hkey, hvalid, fun j hj => s.setSlot_other _ hj⟩
  case errors =>
    rcases execKunwrapk_cases sa sd s with ⟨hbad, heq⟩ | ⟨hlen, _, heq⟩ | ⟨hlen, hvalid, _⟩
    · exact ⟨fun _ => heq, fun hlen => absurd hlen hbad⟩
    · exact ⟨fun hbad => absurd hlen hbad, fun _ _ => heq⟩
    · exact ⟨fun hbad => absurd hlen hbad, fun _ hinvalid => by cases hinvalid.symm.trans hvalid⟩

end Machine
end Sys2Proof
end

section
/-! ## Chained CBC (R162, R163): `CBCENC`, `CBCDEC` (R167, R168) -/

namespace Sys2Proof.Machine

theorem cbcEncFrom_blockBytes (k prev : Block) (ds : List Block) :
    cbcEncFrom k ds.length prev (blockBytes ds) = blockBytes (cbcEncBlocks k prev ds) := by
  induction ds generalizing prev with
  | nil => rfl
  | cons d ds ih =>
    have hd : sliceBytes 16 0 (blockBytes (d :: ds)) = d := sliceBytes_append_left d _
    rw [List.length_cons, cbcEncFrom, hd, drop_blockBytes_cons, ih, cbcEncBlocks, blockBytes_cons]

theorem cbcDecFrom_blockBytes (k prev : Block) (es : List Block) :
    cbcDecFrom k es.length prev (blockBytes es) = blockBytes (cbcDecBlocks k prev es) := by
  induction es generalizing prev with
  | nil => rfl
  | cons e es ih =>
    have he : sliceBytes 16 0 (blockBytes (e :: es)) = e := sliceBytes_append_left e _
    rw [List.length_cons, cbcDecFrom, he, drop_blockBytes_cons, ih, cbcDecBlocks, blockBytes_cons]

theorem length_blockBytes_div (bs : List Block) : (blockBytes bs).length / 16 = bs.length := by
  rw [length_blockBytes, Nat.mul_div_cancel_left _ (by decide)]

theorem cbcEnc_blockBytes (k : Block) (ds : List Block) :
    cbcEnc k (blockBytes ds) = blockBytes (cbcEncBlocks k (zeros 16) ds) := by
  rw [cbcEnc, length_blockBytes_div, cbcEncFrom_blockBytes]

theorem cbcDec_blockBytes (k : Block) (es : List Block) :
    cbcDec k (blockBytes es) = blockBytes (cbcDecBlocks k (zeros 16) es) := by
  rw [cbcDec, length_blockBytes_div, cbcDecFrom_blockBytes]

/-- Block by block: `AES_dec` undoes `AES_enc`, and the xor with the block before undoes itself. -/
theorem cbcDecBlocks_cbcEncBlocks (k prev : Block) (ds : List Block) :
    cbcDecBlocks k prev (cbcEncBlocks k prev ds) = ds := by
  induction ds generalizing prev with
  | nil => rfl
  | cons d ds ih => rw [cbcEncBlocks, cbcDecBlocks, aesDec_aesEnc, xorBytes_xorBytes_cancel, ih]

theorem cbcDec_cbcEnc (k : Block) {d : List Byte} (h : d.length % 16 = 0) : cbcDec k (cbcEnc k d) = d := by
  obtain ⟨ds, -, rfl⟩ := exists_blockBytes_eq (m := d.length / 16) (d := d) (by omega)
  rw [cbcEnc_blockBytes, cbcDec_blockBytes, cbcDecBlocks_cbcEncBlocks]

theorem length_cbcEnc (k : Block) {d : List Byte} (h : d.length % 16 = 0) : (cbcEnc k d).length = d.length := by
  rw [cbcEnc, length_cbcEncFrom]
  omega

/-- Settles O21: `AES_dec` and `AES_enc` are inverse to each other on each block, with the chaining undone block by block. -/
theorem unwrapInvertsWrapAndCbc : Obligations.UnwrapInvertsWrapAndCbc := by
  unfold Obligations.UnwrapInvertsWrapAndCbc
  exact ⟨fun k _ h => ⟨kunwrap_kwrap k h, kwrap_kunwrap k h⟩, fun k _ h => cbcDec_cbcEnc k h⟩

theorem cbcLen_iff (n : BitVec 16) : cbcLen n = true ↔ n ≠ 0 ∧ n.toNat % 16 = 0 ∧ n.toNat ≤ 4096 := by
  have hzero : n.toNat = 0 ↔ n = 0 := BitVec.toNat_inj (y := 0)
  rw [cbcLen, Bool.and_eq_true, Bool.and_eq_true, bne_iff_ne, beq_iff_eq, decide_eq_true_iff, bufsz, Ne, hzero, and_assoc]

theorem cbcLen_of_holds {s : State} {bs : List Block} (h : s.holds (blockBytes bs)) (hmin : 1 ≤ bs.length)
    (hmax : bs.length ≤ 256) : cbcLen s.ilen = true := by
  obtain ⟨hlen, -⟩ := h
  rw [length_blockBytes] at hlen
  refine (cbcLen_iff _).mpr ⟨fun hzero => ?_, by omega, by omega⟩
  have hnat : s.ilen.toNat = 0 := congrArg BitVec.toNat hzero
  omega

theorem cbcCommand_errors (f : Block → List Byte → List Byte) (sa : Slot) (s : State) :
    (s.ilen = 0 ∨ s.ilen.toNat % 16 ≠ 0 ∨ 4096 < s.ilen.toNat →
      slotCommand cbcLen f sa s = .next { s with err := .badLen }) ∧
    (s.ilen ≠ 0 → s.ilen.toNat % 16 = 0 → s.ilen.toNat ≤ 4096 → s.kv[sa] = false →
      slotCommand cbcLen f sa s = .next { s with err := .keySlot }) := by
  refine ⟨fun hbad => slotCommand_of_bad_length (Bool.eq_false_iff.mpr fun hgood => ?_),
    fun hzero hmod hmax => slotCommand_of_invalid_slot ((cbcLen_iff _).mpr ⟨hzero, hmod, hmax⟩)⟩
  obtain ⟨hzero, hmod, hmax⟩ := (cbcLen_iff _).mp hgood
  rcases hbad with h | h | h
  · exact hzero h
  · exact h hmod
  · exact absurd hmax (Nat.not_le.mpr h)

/-- Settles O19: both are the command under a slot key on a list of blocks. -/
theorem cbcCommandsChainTheBlocks : Obligations.CbcCommandsChainTheBlocks := by
  unfold Obligations.CbcCommandsChainTheBlocks
  refine fun sa s => ⟨assemble_sa 0x23 sa, assemble_sa 0x24 sa, fun ds hmin hmax hkv hds => ?output, fun i hi => ?errors⟩
  case output =>
    have hlen := cbcLen_of_holds hds hmin hmax
    rw [← cbcEnc_blockBytes, ← cbcDec_blockBytes]
    exact ⟨slotCommand_of_valid hds hlen hkv, slotCommand_of_valid hds hlen hkv⟩
  case errors =>
    simp only [List.mem_cons, List.not_mem_nil, or_false] at hi
    rcases hi with rfl | rfl
    · exact cbcCommand_errors cbcEnc sa s
    · exact cbcCommand_errors cbcDec sa s

end Sys2Proof.Machine
end

section
/-! ## Attribute blobs (R169, R171): `ATTRENC`, `ATTRDEC` (R170, R172, R173) -/

namespace Sys2Proof.Machine

theorem givesOutput_of_eq {r : Result} {s : State} {v : List Byte} (h : r = .next { s.out v with err := .ok }) :
    GivesOutput r s v :=
  h ▸ givesOutput_out s

/-! ### `ATTRENC` -/

/-- `attr_pack` pads by the one number of zeros below 16 that gives whole blocks (R169). -/
theorem attrPack_eq (p : List Byte) :
    ∃ z, z < 16 ∧ (4 + p.length + z) % 16 = 0 ∧ attrPack p = attrMagic ++ p ++ List.replicate z 0 := by
  refine ⟨(16 - (attrMagic ++ p).length % 16) % 16, Nat.mod_lt _ (by decide), ?_, rfl⟩
  rw [List.length_append, length_attrMagic]
  omega

/-- Everything `ATTRENC` can do (R170): a record too long, a null node, or the output. -/
theorem execAttrenc_cases (s : State) :
    (4092 < s.ilen.toNat ∧ execAttrenc s = .next { s with err := .badLen }) ∨
    (s.ilen.toNat ≤ 4092 ∧ s.nk.state = .null ∧ execAttrenc s = .next { s with err := .keyAccess }) ∨
    (s.ilen.toNat ≤ 4092 ∧ s.nk.state ≠ .null ∧
      execAttrenc s = .next { s.out (cbcEnc s.nk.key (attrPack s.operand)) with err := .ok }) := by
  have hlen : recordLen s.ilen = true ↔ s.ilen.toNat ≤ 4092 := decide_eq_true_iff
  unfold execAttrenc
  by_cases h : recordLen s.ilen = true
  · rw [if_pos h]
    cases hn : s.nk.state with
    | null => exact .inr (.inl ⟨hlen.mp h, rfl, rfl⟩)
    | folder | file => exact .inr (.inr ⟨hlen.mp h, nofun, rfl⟩)
  · exact .inl ⟨Nat.not_le.mp (mt hlen.mpr h), by rw [if_neg h]; rfl⟩

/-- Settles O22: the cases of `ATTRENC` with the padding of `attrPack_eq`. -/
theorem attrencEncryptsThePackedRecord : Obligations.AttrencEncryptsThePackedRecord := by
  unfold Obligations.AttrencEncryptsThePackedRecord
  refine ⟨by decide, fun s p hnode hmax hp => ?output, fun s hlong => ?badLen, fun s hlen hnull => ?keyAccess⟩
  case output =>
    have hlen : s.ilen.toNat = p.length := hp.1
    obtain ⟨z, hz, hmod, hpack⟩ := attrPack_eq p
    refine ⟨z, hz, hmod, ?_⟩
    rcases execAttrenc_cases s with ⟨hlong, _⟩ | ⟨_, hnull, _⟩ | ⟨_, _, heq⟩
    · exact absurd (hlen ▸ hmax) (Nat.not_le.mpr hlong)
    · exact absurd hnull hnode
    · rw [State.operand_of_holds hp, hpack] at heq
      exact givesOutput_of_eq heq
  case badLen =>
    rcases execAttrenc_cases s with ⟨_, heq⟩ | ⟨hlen, _⟩ | ⟨hlen, _⟩
    · exact heq
    · exact absurd hlen (Nat.not_le.mpr hlong)
    · exact absurd hlen (Nat.not_le.mpr hlong)
  case keyAccess =>
    rcases execAttrenc_cases s with ⟨hlong, _⟩ | ⟨_, _, heq⟩ | ⟨_, hnode, _⟩
    · exact absurd hlen (Nat.not_le.mpr hlong)
    · exact heq
    · exact absurd hnull hnode

/-! ### `attr_unpack` -/

/-- What `ATTRDEC` decodes is `attr_unpack` of the operand: it is `BAD` for `ILEN > 4096` already (R171, R172). -/
theorem State.attrRecord_eq (s : State) : s.attrRecord = attrUnpack s.nk.key s.operand := by
  unfold State.attrRecord
  split
  case isTrue hlong => rw [attrUnpack, s.length_operand, if_pos (.inr (.inr hlong))]
  case isFalse => rfl

/-- The blobs that are `BAD` (R171). -/
theorem attrUnpack_eq_none_iff (k : Block) (c : List Byte) :
    attrUnpack k c = none ↔
      c.length = 0 ∨ c.length % 16 ≠ 0 ∨ bufsz < c.length ∨ (cbcDec k c).take 4 ≠ attrMagic := by
  unfold attrUnpack
  by_cases hlen : c.length = 0 ∨ c.length % 16 ≠ 0 ∨ bufsz < c.length
  · simp only [if_pos hlen, true_iff]
    tauto
  · rw [if_neg hlen]
    by_cases hmagic : (cbcDec k c).take 4 = attrMagic
    · simpa [hmagic] using hlen
    · simp [hmagic]

theorem stripZeros_append_zeros (p : List Byte) (z : Nat) : stripZeros (p ++ List.replicate z 0) = stripZeros p := by
  induction z with
  | zero => rw [List.replicate_zero, List.append_nil]
  | succ z ih =>
    rw [List.replicate_succ', ← List.append_assoc, ← ih]
    exact List.rdropWhile_concat_pos _ _ _ rfl

theorem stripZeros_eq_self {p : List Byte} (h : p.getLast? ≠ some 0) : stripZeros p = p := by
  refine List.rdropWhile_eq_self_iff.mpr fun hne hlast => h ?_
  rw [List.getLast?_eq_getLast_of_ne_nil hne, eq_of_beq hlast]

/-- `attr_unpack` undoes the packing with any zero padding to whole blocks (R169, R171). -/
theorem attrUnpack_cbcEnc (k : Block) {p : List Byte} {z : Nat} (hmod : (4 + p.length + z) % 16 = 0)
    (hmax : 4 + p.length + z ≤ 4096) (hlast : p.getLast? ≠ some 0) :
    attrUnpack k (cbcEnc k (attrMagic ++ p ++ List.replicate z 0)) = some p := by
  have hpacked : (attrMagic ++ p ++ List.replicate z 0).length = 4 + p.length + z := by
    simp [length_attrMagic, Nat.add_assoc]
  have hlen : (cbcEnc k (attrMagic ++ p ++ List.replicate z 0)).length = 4 + p.length + z :=
    (length_cbcEnc k (hpacked ▸ hmod)).trans hpacked
  have hdec := cbcDec_cbcEnc k (d := attrMagic ++ p ++ List.replicate z 0) (hpacked ▸ hmod)
  have htake : (attrMagic ++ p ++ List.replicate z 0).take 4 = attrMagic := rfl
  have hdrop : (attrMagic ++ p ++ List.replicate z 0).drop 4 = p ++ List.replicate z 0 := rfl
  have hgood : ¬(4 + p.length + z = 0 ∨ (4 + p.length + z) % 16 ≠ 0 ∨ bufsz < 4 + p.length + z) := by
    simp only [bufsz]
    omega
  simp only [attrUnpack, hlen, if_neg hgood, hdec, htake, hdrop, stripZeros_append_zeros, stripZeros_eq_self hlast, ne_eq,
    not_true_eq_false, if_false]

/-- The first block of a CBC decryption is `AES_dec` of the first block (R163: the IV is zero). -/
theorem take_cbcDec (k : Block) {c : List Byte} (h : 16 ≤ c.length) :
    (cbcDec k c).take 4 = (aesDec k (sliceBytes 16 0 c)).toList.take 4 := by
  obtain ⟨m, hm⟩ : ∃ m, c.length / 16 = m + 1 := Nat.exists_eq_add_one.mpr (by omega)
  rw [cbcDec, hm, cbcDecFrom, xorBytes_zeros, List.take_append_of_le_length (by simp)]

/-! ### `ATTRDEC` -/

/-- Everything `ATTRDEC` can do (R172, R173): a null node, a bad blob, or the record. -/
theorem execAttrdec_cases (s : State) :
    (s.nk.state = .null ∧ execAttrdec s = .next { s with attrbad := true, err := .keyAccess }) ∨
    (s.nk.state ≠ .null ∧ attrUnpack s.nk.key s.operand = none ∧
      execAttrdec s = .next { s with attrbad := true, olen := 0, err := .ok }) ∨
    (∃ p, s.nk.state ≠ .null ∧ attrUnpack s.nk.key s.operand = some p ∧
      execAttrdec s = .next { (s.setAttrbad false).out p with err := .ok }) := by
  unfold execAttrdec
  rw [s.attrRecord_eq]
  cases s.nk.state with
  | null => exact .inl ⟨rfl, rfl⟩
  | folder | file =>
    cases attrUnpack s.nk.key s.operand with
    | none => exact .inr (.inl ⟨nofun, rfl, rfl⟩)
    | some p => exact .inr (.inr ⟨p, nofun, rfl, rfl⟩)

/-- Settles O23: the operand is the packed record encrypted, which `attr_unpack` undoes. -/
theorem attrdecRecoversThePackedRecord : Obligations.AttrdecRecoversThePackedRecord := by
  unfold Obligations.AttrdecRecoversThePackedRecord
  intro s p z hnode hmod hmax hlast hblob
  have hunpack : attrUnpack s.nk.key s.operand = some p :=
    (congrArg _ (State.operand_of_holds hblob)).trans (attrUnpack_cbcEnc s.nk.key hmod hmax hlast)
  rcases execAttrdec_cases s with ⟨hnull, _⟩ | ⟨_, hbad, _⟩ | ⟨q, _, hq, heq⟩
  · exact absurd hnull hnode
  · cases hbad.symm.trans hunpack
  · cases hq.symm.trans hunpack
    exact givesOutput_of_eq (s := s.setAttrbad false) heq

/-- The first block of an operand of at least 16 bytes. -/
theorem State.sliceBytes_operand {s : State} {b : Block} (hlen : 16 ≤ s.ilen.toNat)
    (hb : ∀ j : Fin 16, s.ibuf.read j = b[j]) : sliceBytes 16 0 s.operand = b := by
  ext i hi : 1
  rw [getElem_sliceBytes, Nat.zero_add, s.getD_operand i (hi.trans_le hlen)]
  exact hb ⟨i, hi⟩

/-- Settles O24: each clause makes `attr_unpack` answer `BAD`; an operand too short to have a first block is bad by its length. -/
theorem attrdecToleratesABadBlob : Obligations.AttrdecToleratesABadBlob := by
  unfold Obligations.AttrdecToleratesABadBlob
  intro s b hnode hb hcase
  have hbad : attrUnpack s.nk.key s.operand = none := by
    rw [attrUnpack_eq_none_iff, s.length_operand]
    rcases hcase with hzero | hmod | hlong | hmagic
    · exact .inl (congrArg BitVec.toNat hzero)
    · exact .inr (.inl hmod)
    · exact .inr (.inr (.inl hlong))
    · by_cases hmin : 16 ≤ s.ilen.toNat
      · rw [take_cbcDec _ (s.length_operand.symm ▸ hmin), State.sliceBytes_operand hmin hb]
        exact .inr (.inr (.inr hmagic))
      · have hshort : s.ilen.toNat = 0 ∨ s.ilen.toNat % 16 ≠ 0 := by omega
        exact hshort.imp_right .inl
  rcases execAttrdec_cases s with ⟨hnull, _⟩ | ⟨_, _, heq⟩ | ⟨p, _, hp, _⟩
  · exact absurd hnull hnode
  · exact heq
  · cases hp.symm.trans hbad

/-- Settles O25: each of the three ends of `ATTRDEC` writes those four fields only. -/
theorem attrdecDisturbsNothingElse : Obligations.AttrdecDisturbsNothingElse := by
  unfold Obligations.AttrdecDisturbsNothingElse
  intro s
  rcases execAttrdec_cases s with ⟨hnull, heq⟩ | ⟨hnode, _, heq⟩ | ⟨p, hnode, _, heq⟩
  · exact ⟨_, heq, rfl, fun _ => ⟨rfl, rfl, rfl, rfl⟩, fun hnode => absurd hnull hnode⟩
  · exact ⟨_, heq, rfl, fun hnull => absurd hnull hnode, fun _ => rfl⟩
  · exact ⟨_, heq, rfl, fun hnull => absurd hnull hnode, fun _ => rfl⟩

end Sys2Proof.Machine
end

section
/-! ## Opening, closing and reading out the stream (R192, R193, R206 to R210) -/

namespace Sys2Proof.Machine

/-! ### The lengths and the draw -/

theorem streamLen_of_bounds {v : BitVec 64} (hmin : 1 ≤ v.toNat) (hmax : v.toNat < 2 ^ 63) : streamLen v = true :=
  (streamLen_iff v).mpr ⟨hmin, Nat.le_pred_of_lt hmax⟩

theorem not_streamLen {v : BitVec 64} (h : v = 0 ∨ 2 ^ 63 - 1 < v.toNat) : ¬streamLen v = true := by
  rw [streamLen_iff]
  rintro ⟨hpos, hmax⟩
  rcases h with rfl | hlong
  · exact absurd hpos (by decide)
  · exact absurd hmax (Nat.not_le.mpr hlong)

/-- A draw moves the entropy input on and nothing else (R39). -/
theorem State.afterDraw_eq (s : State) :
    s.afterDraw = { s with entropy := s.afterDraw.entropy, draws := s.afterDraw.draws } := by
  rcases s.afterDraw_cases with ⟨_, _, _, _, heq⟩ | ⟨_, _, heq⟩ <;> rw [heq]

/-- A listed draw is the one drawn, and it is used up (log 2). -/
theorem State.draw_of_listed {s : State} {r : Bytes 24} {rest : List (Bytes 24)} (h : s.entropy = r :: rest) :
    s.drawBytes = r ∧ s.afterDraw.entropy = rest := by
  simp [State.drawBytes, State.afterDraw, h]

theorem getElem_sliceBytes_toList {m n : Nat} (v : Bytes m) (off i : Nat) (hi : i < n) (hm : off + i < m) :
    (sliceBytes n off v.toList)[i] = v[off + i] := by
  simp [List.getD, hm]

/-! ### What opening can do -/

/-- The stream `SOPENE` opens takes its key and IV from the draw (R192). -/
def State.openedEnc (s : State) : State :=
  s.afterDraw.openStream .enc (sliceBytes 16 0 s.drawBytes.toList) (sliceBytes 8 16 s.drawBytes.toList) (zeros 8)

/-- Everything `SOPENE` can do (R192). -/
theorem exec_sopene_cases (s : State) :
    (s.stream.state ≠ .closed ∧ exec .sopene s = .next { s with err := .state }) ∨
    (s.stream.state = .closed ∧ ¬streamLen s.arg0 = true ∧ exec .sopene s = .next { s with err := .badLen }) ∨
    (s.stream.state = .closed ∧ streamLen s.arg0 = true ∧ exec .sopene s = .next { s.openedEnc with err := .ok }) := by
  simp only [exec, execSopene]
  cases hstate : s.stream.state with
  | active | done => exact .inl ⟨nofun, rfl⟩
  | closed =>
    cases hlen : streamLen s.arg0
    · exact .inr (.inl ⟨rfl, nofun, rfl⟩)
    · exact .inr (.inr ⟨rfl, rfl, rfl⟩)

/-- Everything `SOPEND` can do (R193). -/
theorem exec_sopend_cases (s : State) :
    (s.stream.state ≠ .closed ∧ exec .sopend s = .next { s with err := .state }) ∨
    (s.stream.state = .closed ∧ ¬streamLen s.arg0 = true ∧ exec .sopend s = .next { s with err := .badLen }) ∨
    (s.stream.state = .closed ∧ streamLen s.arg0 = true ∧ s.nk.state ≠ .file ∧
      exec .sopend s = .next { s with err := .keyAccess }) ∨
    (s.stream.state = .closed ∧ streamLen s.arg0 = true ∧ s.nk.state = .file ∧
      exec .sopend s = .next { s.openStream .dec s.nk.key s.nk.iv s.nk.mac with err := .ok }) := by
  simp only [exec, execSopend]
  cases hstate : s.stream.state with
  | active | done => exact .inl ⟨nofun, rfl⟩
  | closed =>
    cases hlen : streamLen s.arg0
    · exact .inr (.inl ⟨rfl, nofun, rfl⟩)
    · cases hnode : s.nk.state with
      | null | folder => exact .inr (.inr (.inl ⟨rfl, rfl, nofun, rfl⟩))
      | file => exact .inr (.inr (.inr ⟨rfl, rfl, rfl, rfl⟩))

theorem exec_sopene_of_closed {s : State} (hstate : s.stream.state = .closed) (hlen : streamLen s.arg0 = true) :
    exec .sopene s = .next { s.openedEnc with err := .ok } := by
  rcases exec_sopene_cases s with ⟨hopen, _⟩ | ⟨_, hbad, _⟩ | ⟨_, _, heq⟩
  · exact absurd hstate hopen
  · exact absurd hlen hbad
  · exact heq

theorem exec_sopend_of_closed {s : State} (hstate : s.stream.state = .closed) (hlen : streamLen s.arg0 = true)
    (hnode : s.nk.state = .file) :
    exec .sopend s = .next { s.openStream .dec s.nk.key s.nk.iv s.nk.mac with err := .ok } := by
  rcases exec_sopend_cases s with ⟨hopen, _⟩ | ⟨_, hbad, _⟩ | ⟨_, _, hno, _⟩ | ⟨_, _, _, heq⟩
  · exact absurd hstate hopen
  · exact absurd hlen hbad
  · exact absurd hnode hno
  · exact heq

/-- Settles O36: the cases of `SOPENE`, the key and the IV as slices of the draw. -/
theorem sopeneOpensAFreshStream : Obligations.SopeneOpensAFreshStream := by
  unfold Obligations.SopeneOpensAFreshStream
  refine ⟨by decide, fun s => ⟨fun hstate hmin hmax => ?opened, ?errors⟩⟩
  case opened =>
    refine ⟨_, exec_sopene_of_closed hstate (streamLen_of_bounds hmin hmax), ?frame, ?fresh, ?key, ?iv, ?listed⟩
    case frame =>
      unfold State.openedEnc
      rw [s.afterDraw_eq]
      rfl
    case fresh => simp [State.openedEnc, State.openStream, Stream.fresh]
    case key => exact fun i => (getElem_sliceBytes_toList s.drawBytes 0 i i.isLt (by omega)).trans (by simp)
    case iv => exact fun i => (getElem_sliceBytes_toList s.drawBytes 16 i i.isLt (by omega)).trans (by simp [Nat.add_comm])
    case listed => exact fun r rest hlist => State.draw_of_listed hlist
  case errors =>
    rcases exec_sopene_cases s with ⟨hopen, heq⟩ | ⟨hclosed, hbad, heq⟩ | ⟨hclosed, hgood, _⟩
    · exact ⟨fun _ => heq, fun hclosed => absurd hclosed hopen⟩
    · exact ⟨fun hopen => absurd hclosed hopen, fun _ _ => heq⟩
    · exact ⟨fun hopen => absurd hclosed hopen, fun _ hbad => absurd hgood (not_streamLen hbad)⟩

/-- Settles O37: the cases of `SOPEND`. -/
theorem sopendOpensTheNodesStream : Obligations.SopendOpensTheNodesStream := by
  unfold Obligations.SopendOpensTheNodesStream
  refine ⟨by decide, fun s => ⟨fun hstate hmin hmax hnode => ?opened, ?errors⟩⟩
  case opened => exact exec_sopend_of_closed hstate (streamLen_of_bounds hmin hmax) hnode
  case errors =>
    rcases exec_sopend_cases s with
      ⟨hopen, heq⟩ | ⟨hclosed, hbad, heq⟩ | ⟨hclosed, hgood, hnode, heq⟩ | ⟨hclosed, hgood, hnode, _⟩
    · exact ⟨fun _ => heq, fun hclosed => absurd hclosed hopen, fun hclosed => absurd hclosed hopen⟩
    · exact ⟨fun hopen => absurd hclosed hopen, fun _ _ => heq,
        fun _ hmin hmax => absurd (streamLen_of_bounds hmin hmax) hbad⟩
    · exact ⟨fun hopen => absurd hclosed hopen, fun _ hbad => absurd hgood (not_streamLen hbad),
        fun _ _ _ _ => heq⟩
    · exact ⟨fun hopen => absurd hclosed hopen, fun _ hbad => absurd hgood (not_streamLen hbad),
        fun _ _ _ hno => absurd hnode hno⟩

/-! ### Reading out and closing -/

/-- Everything `SGETKEY` can do (R206). -/
theorem exec_sgetkey_cases (s : State) :
    ((s.stream.state = .closed ∨ s.stream.mode = .dec) ∧ exec .sgetkey s = .next { s with err := .state }) ∨
    (s.stream.state ≠ .closed ∧ s.stream.mode = .enc ∧
      exec .sgetkey s = .next { s.out (s.stream.key.toList ++ s.stream.iv.toList) with err := .ok }) := by
  simp only [exec, execSgetkey]
  cases s.stream.state with
  | closed => exact .inl ⟨.inl rfl, rfl⟩
  | active | done =>
    cases s.stream.mode with
    | dec => exact .inl ⟨.inr rfl, rfl⟩
    | enc => exact .inr ⟨nofun, rfl, rfl⟩

/-- Settles O47: the tag by the invariant, the results by the cases of the two commands. -/
theorem streamResultsAreReadOut : Obligations.StreamResultsAreReadOut := by
  unfold Obligations.StreamResultsAreReadOut
  refine ⟨by decide, by decide, fun s => ⟨?tag, ?key, ?noKey, ?mac, ?macClosed, ?macActive⟩⟩
  case tag =>
    intro hinv hdone hdec
    obtain ⟨-, -, -, -, -, -, hinteg⟩ := hinv
    rw [← Bool.not_eq_true, hinteg]
    simp [hdone, hdec]
  case key =>
    intro hopen henc
    rcases exec_sgetkey_cases s with ⟨hclosed | hdec, _⟩ | ⟨_, _, heq⟩
    · exact absurd hclosed hopen
    · cases hdec.symm.trans henc
    · exact givesOutput_of_eq heq
  case noKey =>
    intro hno
    rcases exec_sgetkey_cases s with ⟨_, heq⟩ | ⟨hopen, henc, _⟩
    · exact heq
    · rcases hno with hclosed | hdec
      · exact absurd hclosed hopen
      · cases hdec.symm.trans henc
  case mac =>
    intro hdone
    exact givesOutput_of_eq (by simp [exec, execSgetmac, hdone])
  case macClosed =>
    intro hclosed
    simp [exec, execSgetmac, hclosed]
  case macActive =>
    intro hactive
    simp [exec, execSgetmac, hactive]

/-- Settles O48: `SCLOSE` has one effect, whatever the state. -/
theorem sclosesDiscardTheStream : Obligations.SclosesDiscardTheStream := by
  unfold Obligations.SclosesDiscardTheStream
  exact ⟨by decide, fun _ => rfl⟩

/-- Settles O49: both commands are one error, whatever the state. -/
theorem seekAndWriteAlwaysFail : Obligations.SeekAndWriteAlwaysFail := by
  unfold Obligations.SeekAndWriteAlwaysFail
  exact ⟨by decide, by decide, fun _ => ⟨rfl, rfl⟩⟩

end Sys2Proof.Machine
end

section
/-! ## The read command (R196, R197, R201 to R203, R211)

`Stream.read` and `State.read` are the model's `readBytes` and `endRead` in one: what a read that goes ahead leaves.
`State.Reads.exec_sread` ties them to the model. -/

namespace Sys2Proof.Machine

/-! ### The size rule -/

theorem readSpan_eq_some_iff {L pos count n : Nat} :
    readSpan L pos count = some n ↔
      L ≤ pos + count ∧ n = L - pos ∨ pos + count < L ∧ 16 ≤ count ∧ n = count - count % 16 := by
  rcases readSpan_cases L pos count with ⟨h, heq⟩ | ⟨h, h', heq⟩ | ⟨h, h', heq⟩ <;> rw [heq] <;> simp <;> omega

theorem readSpan_eq_none_iff {L pos count : Nat} : readSpan L pos count = none ↔ pos + count < L ∧ count < 16 := by
  rcases readSpan_cases L pos count with ⟨h, heq⟩ | ⟨h, h', heq⟩ | ⟨h, h', heq⟩ <;> rw [heq] <;> simp <;> omega

/-- A read ends within the 64 bits of the position: at the end of the stream, or before it, or where it began. -/
theorem readSpan_bound {L pos count n : Nat} (h : readSpan L pos count = some n) : pos + n ≤ max L pos := by
  rw [readSpan_eq_some_iff] at h
  omega

/-! ### The stream after a read -/

/-- At the end of the stream the last fold is made and the stream is done (R201). -/
def Stream.finaliseAtEnd (S : Stream) : Stream := if S.pos = S.len then S.finalise else S

/-- The stream after a read of the bytes `x`: they are consumed (R197), and at the end it is finalised. -/
def Stream.read (S : Stream) (x : List Byte) : Stream := (S.consume params x).1.finaliseAtEnd

/-- A finished stream that fails the integrity check (R202). -/
def Stream.rejected (S : Stream) : Bool := decide (S.state = .done) && S.corrupt

theorem Stream.rejected_iff (S : Stream) :
    S.rejected = true ↔ S.state = .done ∧ S.mode = .dec ∧ S.metamac ≠ S.expmac := by
  simp [Stream.rejected, Stream.corrupt_iff]

theorem Stream.rejected_finalise (S : Stream) : S.finalise.rejected = S.finalise.corrupt := rfl

theorem Stream.finaliseAtEnd_of_end {S : Stream} (h : S.pos = S.len) : S.finaliseAtEnd = S.finalise := if_pos h

theorem Stream.finaliseAtEnd_of_ne {S : Stream} (h : S.pos ≠ S.len) : S.finaliseAtEnd = S := if_neg h

/-- Finalisation writes the state, the file MAC and the tag (R201). -/
theorem Stream.finaliseAtEnd_frame (S : Stream) :
    S.finaliseAtEnd = { S with state := S.finaliseAtEnd.state, filemac := S.finaliseAtEnd.filemac,
                               metamac := S.finaliseAtEnd.metamac } := by
  unfold Stream.finaliseAtEnd
  split <;> rfl

section
variable (S : Stream) (x : List Byte)

/-- What a read of the stream keeps: the consumed bytes and finalisation change none of the setup but these three fields. -/
theorem Stream.read_setup :
    S.SameSetup { S.read x with state := S.state, pos := S.pos, metamac := S.metamac } := by
  have h := S.consume_setup params x
  rw [Stream.read, Stream.finaliseAtEnd_frame]
  exact ⟨rfl, h.mode, h.key, h.iv, h.expmac, h.len, rfl, rfl⟩

theorem Stream.read_frame :
    S.read x = { S with state := (S.read x).state, pos := (S.read x).pos, ctr := (S.read x).ctr,
                        chunkmac := (S.read x).chunkmac, filemac := (S.read x).filemac, metamac := (S.read x).metamac } := by
  obtain ⟨-, hmode, hkey, hiv, hexp, hlen, -, -⟩ := S.read_setup x
  simp only at hmode hkey hiv hexp hlen
  simp only [← hmode, ← hkey, ← hiv, ← hexp, ← hlen]

theorem Stream.read_pos : (S.read x).pos = BitVec.ofNat 64 (S.pos.toNat + x.length) := by
  rw [Stream.read, Stream.finaliseAtEnd_frame]
  rfl

theorem Stream.read_ctr : (S.read x).ctr = S.ctr + BitVec.ofNat 64 ((x.length + 15) / 16) := by
  rw [Stream.read, Stream.finaliseAtEnd_frame]
  exact S.consume_ctr params x

/-- A read leaves an active stream done exactly when it reaches the end (R201). -/
theorem Stream.read_state {S : Stream} (hact : S.state = .active) :
    (S.read x).state = if (S.read x).pos = S.len then .done else .active := by
  have hsetup := S.consume_setup params x
  have hlen : (S.consume params x).1.len = S.len := hsetup.len
  rw [Stream.read_pos, ← Stream.consume_pos params, ← hlen]
  unfold Stream.read Stream.finaliseAtEnd
  split
  · rfl
  · exact hsetup.state.trans hact

end

/-! ### The outcomes of the command -/

/-- The state after a read of `n` bytes that goes ahead (R197, R201, R202). -/
def State.read (s : State) (n : Nat) : State :=
  { s.readBytes n with
    stream := s.stream.read (s.sin.take n)
    integ := s.integ || (s.stream.read (s.sin.take n)).rejected
    err := if (s.stream.read (s.sin.take n)).rejected then .integrity else .ok }

@[simp] theorem State.read_stream (s : State) (n : Nat) : (s.read n).stream = s.stream.read (s.sin.take n) := rfl
@[simp] theorem State.read_sin (s : State) (n : Nat) : (s.read n).sin = s.sin.drop n := rfl
@[simp] theorem State.read_sout (s : State) (n : Nat) :
    (s.read n).sout = s.sout ++ (s.stream.consume params (s.sin.take n)).2 := rfl
@[simp] theorem State.read_res (s : State) (n : Nat) : (s.read n).res = BitVec.ofNat 64 n := rfl
@[simp] theorem State.read_integ (s : State) (n : Nat) : (s.read n).integ = (s.integ || (s.read n).stream.rejected) := rfl
@[simp] theorem State.read_err (s : State) (n : Nat) :
    (s.read n).err = if (s.read n).stream.rejected then .integrity else .ok := rfl

theorem State.read_err_eq_integrity_iff (s : State) (n : Nat) :
    (s.read n).err = .integrity ↔ (s.read n).stream.rejected = true := by
  rw [State.read_err]
  split
  case isTrue h => exact iff_of_true rfl h
  case isFalse h => exact iff_of_false nofun h

theorem State.read_err_cases (s : State) (n : Nat) : (s.read n).err = .ok ∨ (s.read n).err = .integrity := by
  rw [State.read_err]
  split
  · exact .inr rfl
  · exact .inl rfl

/-- The end of a read, in one equation: finalise at the end, and raise the integrity error for a rejected stream. -/
theorem State.endRead_of_active {s : State} (hact : s.stream.state = .active) :
    s.endRead = .next { s with stream := s.stream.finaliseAtEnd, integ := s.integ || s.stream.finaliseAtEnd.rejected,
                               err := if s.stream.finaliseAtEnd.rejected then .integrity else .ok } := by
  rcases s.endRead_cases with ⟨hne, heq⟩ | ⟨hend, hok, heq⟩ | ⟨hend, hbad, heq⟩ <;> rw [heq]
  · simp [Stream.finaliseAtEnd_of_ne hne, Stream.rejected, hact]
  · simp [Stream.finaliseAtEnd_of_end hend, Stream.rejected_finalise, hok]
  · simp [Stream.finaliseAtEnd_of_end hend, Stream.rejected_finalise, hbad]

section
variable {s : State} {n : Nat}

theorem exec_sread_of_closed (h : s.stream.state = .closed) : exec .sread s = .next { s with err := .state } := by
  simp [exec, execSread, h]

theorem exec_sread_of_done (h : s.stream.state = .done) : exec .sread s = .next { s with res := 0, err := .ok } := by
  simp [exec, execSread, h, State.setRes]

theorem exec_sread_of_small_count (hact : s.stream.state = .active)
    (hspan : readSpan s.stream.len.toNat s.stream.pos.toNat s.arg0.toNat = none) :
    exec .sread s = .next { s with err := .readSize } := by
  simp [exec, execSread, hact, hspan]

theorem exec_sread_of_underrun (hact : s.stream.state = .active)
    (hspan : readSpan s.stream.len.toNat s.stream.pos.toNat s.arg0.toNat = some n) (hshort : s.sin.length < n) :
    exec .sread s = .next { s with err := .underrun } := by
  simp [exec, execSread, hact, hspan, hshort]

/-- `State.read` is what the model does: the effects of the read, then its end. -/
theorem State.Reads.exec_sread (h : s.Reads n) : exec .sread s = .next (s.read n) := by
  have hact : (s.readBytes n).stream.state = .active := (s.stream.consume_setup params _).state.trans h.active
  calc exec .sread s
      = (s.readBytes n).endRead := by simp [exec, execSread, h.active, h.span, Nat.not_lt.mpr h.enough]
    _ = .next (s.read n) := State.endRead_of_active hact

/-- Everything `SREAD` can do: an error before any effect, nothing on a finished stream, or a read. -/
theorem exec_sread_cases (s : State) :
    (∃ e, e ≠ .ok ∧ e ≠ .integrity ∧ exec .sread s = .next { s with err := e }) ∨
    (s.stream.state = .done ∧ exec .sread s = .next { s with res := 0, err := .ok }) ∨
    ∃ n, s.Reads n ∧ exec .sread s = .next (s.read n) := by
  rcases execSread_cases s with
    ⟨_, heq⟩ | ⟨hdone, heq⟩ | ⟨_, _, heq⟩ | ⟨_, _, _, _, heq⟩ | ⟨n, hact, hspan, hsin, _⟩
  · exact .inl ⟨.state, nofun, nofun, heq⟩
  · exact .inr (.inl ⟨hdone, heq⟩)
  · exact .inl ⟨.readSize, nofun, nofun, heq⟩
  · exact .inl ⟨.underrun, nofun, nofun, heq⟩
  · have hreads : s.Reads n := ⟨hact, hspan, hsin⟩
    exact .inr (.inr ⟨n, hreads, hreads.exec_sread⟩)

/-- A read moves fewer than `2^64` bytes, so `RES` holds their number (R37, R307). -/
theorem State.Reads.toNat_res (h : s.Reads n) : (s.read n).res.toNat = n := by
  have hbound := readSpan_bound h.span
  have hlen := s.stream.len.isLt
  have hpos := s.stream.pos.isLt
  exact (BitVec.toNat_ofNat n 64).trans (Nat.mod_eq_of_lt (by omega))

end

/-- Settles O39: the equations of the reads that move no byte. -/
theorem sreadOtherwiseLeavesTheStream : Obligations.SreadOtherwiseLeavesTheStream := by
  unfold Obligations.SreadOtherwiseLeavesTheStream
  intro s
  refine ⟨exec_sread_of_closed, exec_sread_of_done, fun hact hbefore => ⟨fun hsmall => ?readSize, fun hmin hshort => ?blocks⟩,
    fun hact hend hshort => ?toEnd⟩
  case readSize => exact exec_sread_of_small_count hact (readSpan_eq_none_iff.mpr ⟨hbefore, hsmall⟩)
  case blocks => exact exec_sread_of_underrun hact (readSpan_eq_some_iff.mpr (.inr ⟨hbefore, hmin, rfl⟩)) hshort
  case toEnd => exact exec_sread_of_underrun hact (readSpan_eq_some_iff.mpr (.inl ⟨hend, rfl⟩)) hshort

/-- Settles O40: the underrun leaves the state the size rule looks at, so the same read goes ahead once `SIN` is long enough. -/
theorem underrunChangesNothingAndIsRetried : Obligations.UnderrunChangesNothingAndIsRetried := by
  unfold Obligations.UnderrunChangesNothingAndIsRetried
  refine fun s n => ⟨fun hact hsize hshort => ?retried, fun hact hbefore hsmall => ?readSize, fun hdone => ?surplus⟩
  case retried =>
    have hspan := readSpan_eq_some_iff.mpr hsize
    refine ⟨exec_sread_of_underrun hact hspan hshort, fun v henough => ?_⟩
    have hreads : State.Reads { s with sin := s.sin ++ v, err := .underrun } n := ⟨hact, hspan, henough⟩
    exact ⟨_, _, rfl, hreads.exec_sread, State.read_err_cases _ _, hreads.toNat_res, rfl⟩
  case readSize => exact exec_sread_of_small_count hact (readSpan_eq_none_iff.mpr ⟨hbefore, hsmall⟩)
  case surplus => exact ⟨_, exec_sread_of_done hdone, rfl⟩

/-- The integrity error is an error of `SREAD` alone (R315). -/
theorem eq_sread_of_integrity {i : Instr} {s t : State} (h : exec i s = .next t) (herr : t.err = .integrity) : i = .sread := by
  obtain ⟨u, e, heff, rfl⟩ := exec_effect h
  cases herr
  cases heff with
  | raised listed => cases i <;> simp [Instr.errors] at listed ⊢
  | readCorrupt => rfl

/-- Settles O41: a read raises the error exactly when it leaves a rejected stream; an earlier error leaves the stream as it is. -/
theorem integrityIsRaisedOnlyAtTheEnd : Obligations.IntegrityIsRaisedOnlyAtTheEnd := by
  unfold Obligations.IntegrityIsRaisedOnlyAtTheEnd
  intro i s t h
  by_cases hi : i = .sread
  case neg => exact ⟨fun herr => absurd (eq_sread_of_integrity h herr) hi, fun hall => absurd hall.1 hi⟩
  case pos =>
    subst hi
    rcases exec_sread_cases s with ⟨e, _, hne, heq⟩ | ⟨hdone, heq⟩ | ⟨n, hreads, heq⟩ <;> cases heq.symm.trans h
    · refine ⟨fun herr => absurd herr hne, fun ⟨_, hact, hdone, _⟩ => ?_⟩
      cases hact.symm.trans hdone
    · refine ⟨nofun, fun ⟨_, hact, _⟩ => ?_⟩
      cases hact.symm.trans hdone
    · have hsetup := s.stream.read_setup (s.sin.take n)
      have hmode : (s.read n).stream.mode = s.stream.mode := hsetup.mode
      have hexp : (s.read n).stream.expmac = s.stream.expmac := hsetup.expmac
      rw [s.read_err_eq_integrity_iff, Stream.rejected_iff, hmode, hexp]
      simp [hreads.active]

/-- Settles O42: the commands that write no stream keep its state, and the others are run through by their cases. -/
theorem streamLifeCycle : Obligations.StreamLifeCycle := by
  unfold Obligations.StreamLifeCycle
  intro i s t h
  cases i with
  | sopene =>
    rcases exec_sopene_cases s with ⟨_, heq⟩ | ⟨_, _, heq⟩ | ⟨hclosed, _, heq⟩ <;> cases heq.symm.trans h
    · exact ⟨fun hne => absurd rfl hne, nofun, nofun⟩
    · exact ⟨fun hne => absurd rfl hne, nofun, nofun⟩
    · exact ⟨fun _ => .inl ⟨.inl rfl, hclosed, rfl, rfl⟩, fun _ _ => rfl, nofun⟩
  | sopend =>
    rcases exec_sopend_cases s with ⟨_, heq⟩ | ⟨_, _, heq⟩ | ⟨_, _, _, heq⟩ | ⟨hclosed, _, _, heq⟩ <;> cases heq.symm.trans h
    · exact ⟨fun hne => absurd rfl hne, nofun, nofun⟩
    · exact ⟨fun hne => absurd rfl hne, nofun, nofun⟩
    · exact ⟨fun hne => absurd rfl hne, nofun, nofun⟩
    · exact ⟨fun _ => .inl ⟨.inr rfl, hclosed, rfl, rfl⟩, fun _ _ => rfl, nofun⟩
  | sread =>
    refine ⟨fun hne => .inr (.inl ?_), nofun, nofun⟩
    rcases exec_sread_cases s with ⟨_, _, _, heq⟩ | ⟨_, heq⟩ | ⟨n, hreads, heq⟩ <;> cases heq.symm.trans h
    · exact absurd rfl hne
    · exact absurd rfl hne
    · have hlen : (s.read n).stream.len = s.stream.len := (s.stream.read_setup (s.sin.take n)).len
      have hstate := Stream.read_state (s.sin.take n) hreads.active
      by_cases hend : (s.read n).stream.pos = s.stream.len
      · exact ⟨rfl, hreads.active, hstate.trans (if_pos hend), hend.trans hlen.symm⟩
      · exact absurd ((hstate.trans (if_neg hend)).trans hreads.active.symm) hne
  | sclose | reset =>
    cases h
    exact ⟨fun _ => .inr (.inr ⟨by simp, rfl⟩), by simp, fun _ => rfl⟩
  | _ =>
    obtain ⟨u, e, heff, rfl⟩ := exec_effect h
    exact ⟨fun hne => absurd (congrArg Stream.state (heff.stream_frame rfl).1) hne, by simp, by simp⟩

end Sys2Proof.Machine
end

section
/-! ## The keystream of a read (R194, R195, R198) -/

namespace Sys2Proof.Machine

theorem getD_xorStream {b : List Byte} (ks : Block) {j : Nat} (hj : j < b.length) (hj' : j < 16) :
    (xorStream b ks).getD j 0 = b.getD j 0 ^^^ ks[j] := by
  simp [xorStream, List.getD, hj, hj']

/-- The byte at index `j` of a run of block steps is the input byte xored with byte `j mod 16` of the keystream block that is
`j / 16` blocks further on; the counter does not wrap (R195). -/
theorem Stream.getD_blockSteps (cfg : Config) (n : Nat) (S : Stream) (p : Nat) (x : List Byte) (j : Nat)
    (hx : j < x.length) (hn : j < 16 * n) (hctr : S.ctr.toNat + n ≤ 2 ^ 64) :
    (Stream.blockSteps cfg n S p x).2.getD j 0 =
      x.getD j 0 ^^^ (keystream S.key S.iv (S.ctr.toNat + j / 16 + cfg.ctrFirst))[j % 16]'(Nat.mod_lt j (by decide)) := by
  induction n generalizing S p x j with
  | zero => omega
  | succ n ih =>
    have hout := S.blockStep_out cfg p (x.take 16)
    have hfirst : (S.blockStep cfg p (x.take 16)).2.length = min x.length 16 := by
      rw [hout, length_xorStream, List.length_take]
      omega
    simp only [Stream.blockSteps]
    by_cases hj : j < 16
    case pos =>
      rw [List.getD_append _ _ _ _ (by omega), hout, getD_xorStream _ (by rw [List.length_take]; omega) hj]
      simp [List.getD, hj, Nat.div_eq_of_lt hj, Nat.mod_eq_of_lt hj]
    case neg =>
      have hsetup := S.blockStep_setup cfg p (x.take 16)
      have hctr' : (S.blockStep cfg p (x.take 16)).1.ctr.toNat = S.ctr.toNat + 1 := by
        rw [Stream.blockStep_ctr, BitVec.toNat_add, show (1 : BitVec 64).toNat = 1 from rfl]
        omega
      have hcount : S.ctr.toNat + 1 + (j - 16) / 16 = S.ctr.toNat + j / 16 := by omega
      have hbyte : (j - 16) % 16 = j % 16 := by omega
      rw [List.getD_append_right _ _ _ _ (by omega), hfirst, Nat.min_eq_right (by omega),
        ih _ _ _ _ (by rw [List.length_drop]; omega) (by omega) (by omega), hsetup.key, hsetup.iv, hctr', hcount]
      simp only [hbyte, List.getD, List.getElem?_drop]
      rw [show 16 + (j - 16) = j by omega]

/-- A read of a stream whose counter stands at its position gives each byte the keystream byte of its offset (R195, R198). -/
theorem Stream.getD_consume {S : Stream} {x : List Byte} {j : Nat} (hj : j < x.length) (haligned : S.pos.toNat % 16 = 0)
    (hctr : S.ctr.toNat = S.pos.toNat / 16) (hbound : S.pos.toNat + x.length < 2 ^ 64) :
    (S.consume params x).2.getD j 0 = x.getD j 0 ^^^
      (keystream S.key S.iv ((S.pos.toNat + j) / 16))[(S.pos.toNat + j) % 16]'(Nat.mod_lt _ (by decide)) := by
  have hcount : S.ctr.toNat + j / 16 + params.ctrFirst = (S.pos.toNat + j) / 16 := by
    rw [hctr, show params.ctrFirst = 0 from rfl]
    omega
  have hbyte : j % 16 = (S.pos.toNat + j) % 16 := by omega
  rw [Stream.consume, Stream.getD_blockSteps _ _ _ _ _ _ hj (by omega) (by omega), hcount]
  simp only [hbyte]

/-- Settles O38: the fields of `State.read`, with the position and the counter as the invariant places them. -/
theorem sreadTransformsTheBytes : Obligations.SreadTransformsTheBytes := by
  unfold Obligations.SreadTransformsTheBytes
  intro s n hinv hact hsize henough
  have hreads : s.Reads n := ⟨hact, readSpan_eq_some_iff.mpr hsize, henough⟩
  have hinteg : s.integ = false := hinv.integ_of_active hact
  obtain ⟨-, -, -, -, -, ⟨hmax, -, hactive, -⟩, -⟩ := hinv
  obtain ⟨hlt, haligned, hctr, -⟩ := hactive hact
  have htake : (s.sin.take n).length = n := List.length_take_of_le henough
  have hbound : s.stream.pos.toNat + n ≤ s.stream.len.toNat := by
    have := readSpan_bound hreads.span
    omega
  have hmax' : lenMax < 2 ^ 63 := by decide
  have hpos : (s.read n).stream.pos.toNat = s.stream.pos.toNat + n := by
    rw [State.read_stream, Stream.read_pos, htake, BitVec.toNat_ofNat, Nat.mod_eq_of_lt (by omega)]
  have hsetup := s.stream.read_setup (s.sin.take n)
  refine ⟨s.read n, _, hreads.exec_sread, rfl, ?frame, rfl, rfl, ?length, hreads.toNat_res, ?bytes, hpos, ?ctr, ?state, ?integ,
    ?err⟩
  case frame => exact s.stream.read_frame _
  case length => rw [Stream.length_consume, htake]
  case bytes =>
    intro j hj
    rw [Stream.getD_consume (by omega) haligned hctr (by omega)]
    simp [List.getD, hj]
  case ctr =>
    rw [State.read_stream, Stream.read_ctr, htake, BitVec.toNat_add, BitVec.toNat_ofNat, hctr]
    omega
  case state =>
    have hend : (s.read n).stream.pos = s.stream.len ↔ s.stream.pos.toNat + n = s.stream.len.toNat := by
      rw [← hpos, BitVec.toNat_inj]
    exact (Stream.read_state _ hact).trans (if_congr hend rfl rfl)
  case integ =>
    have hmode : (s.read n).stream.mode = s.stream.mode := hsetup.mode
    have hexp : (s.read n).stream.expmac = s.stream.expmac := hsetup.expmac
    rw [State.read_integ, hinteg, Bool.false_or, Bool.eq_iff_iff, Stream.rejected_iff, hmode, hexp]
    simp only [Bool.and_eq_true, decide_eq_true_eq, and_assoc]
  case err => rw [State.read_err, State.read_integ, hinteg, Bool.false_or]

end Sys2Proof.Machine
end

section
/-! ## The size of the reads does not matter (R204)

`State.Advances s n t` says that `t` has the stream, the queues and `INTEG` that one read of `n` bytes leaves; such reads compose. -/

namespace Sys2Proof.Machine

/-! ### Consuming in two parts -/

/-- Block steps neither read nor write the position. -/
theorem Stream.blockStep_setPos (cfg : Config) (S : Stream) (q : BitVec 64) (p : Nat) (b : List Byte) :
    Stream.blockStep cfg { S with pos := q } p b =
      ({ (S.blockStep cfg p b).1 with pos := q }, (S.blockStep cfg p b).2) := by
  have hstart : Stream.startChunk { S with pos := q } p = { S.startChunk p with pos := q } := by
    unfold Stream.startChunk
    split <;> rfl
  simp only [Stream.blockStep, hstart]
  rfl

theorem Stream.blockSteps_setPos (cfg : Config) (n : Nat) (S : Stream) (q : BitVec 64) (p : Nat) (x : List Byte) :
    Stream.blockSteps cfg n { S with pos := q } p x =
      ({ (Stream.blockSteps cfg n S p x).1 with pos := q }, (Stream.blockSteps cfg n S p x).2) := by
  induction n generalizing S p x with
  | zero => rfl
  | succ n ih => simp only [Stream.blockSteps, Stream.blockStep_setPos, ih]

/-- Consuming bytes of `m` blocks, the last of which may be short. -/
theorem Stream.consume_blocks (cfg : Config) (S : Stream) {x : List Byte} {m : Nat} (h : (x.length + 15) / 16 = m) :
    S.consume cfg x = ({ (Stream.blockSteps cfg m S S.pos.toNat x).1 with pos := BitVec.ofNat 64 (S.pos.toNat + x.length) },
      (Stream.blockSteps cfg m S S.pos.toNat x).2) := by
  rw [← h]
  rfl

/-- Whole blocks and then more bytes are consumed as all of the bytes at once. -/
theorem Stream.consume_append (cfg : Config) (S : Stream) (x y : List Byte) (hx : x.length % 16 = 0)
    (hpos : S.pos.toNat + x.length < 2 ^ 64) :
    S.consume cfg (x ++ y) =
      (((S.consume cfg x).1.consume cfg y).1, (S.consume cfg x).2 ++ ((S.consume cfg x).1.consume cfg y).2) := by
  obtain ⟨m, hm⟩ : ∃ m, x.length = 16 * m := ⟨x.length / 16, by omega⟩
  have hblocks : ((x ++ y).length + 15) / 16 = m + (y.length + 15) / 16 := by rw [List.length_append]; omega
  have hfirst : Stream.blockSteps cfg m S S.pos.toNat (x ++ y) = Stream.blockSteps cfg m S S.pos.toNat x := by
    rw [← Stream.blockSteps_take cfg m S _ (x ++ y) x.length (by omega), List.take_left]
  have hrest : (x ++ y).drop (16 * m) = y := by rw [← hm, List.drop_left]
  have hmid : (BitVec.ofNat 64 (S.pos.toNat + x.length)).toNat = S.pos.toNat + 16 * m := by
    rw [BitVec.toNat_ofNat, Nat.mod_eq_of_lt hpos, hm]
  have hend : S.pos.toNat + (x ++ y).length = S.pos.toNat + 16 * m + y.length := by rw [List.length_append]; omega
  rw [S.consume_blocks cfg hblocks, S.consume_blocks cfg (x := x) (m := m) (by omega), Stream.consume_blocks cfg _ (x := y) rfl,
    Stream.blockSteps_add, hfirst, hrest, hend]
  simp only [Stream.blockSteps_setPos, hmid]

/-! ### The size rule for counts that are taken whole -/

theorem readSpan_self {L pos count n : Nat} (h : readSpan L pos count = some n) : readSpan L pos n = some n := by
  rw [readSpan_eq_some_iff] at *
  omega

/-- A read that stops before the end takes whole blocks, and what a second read takes after it one read takes with it. -/
theorem readSpan_add {L pos m n : Nat} (hm : readSpan L pos m = some m) (hne : pos + m ≠ L)
    (hn : readSpan L (pos + m) n = some n) : m % 16 = 0 ∧ readSpan L pos (m + n) = some (m + n) := by
  rw [readSpan_eq_some_iff] at *
  omega

/-! ### Reads of given numbers of bytes -/

/-- `t` has the stream, the queues and `INTEG` that a read of exactly `n` bytes leaves of `s`. -/
structure State.Advances (s : State) (n : Nat) (t : State) : Prop where
  active : s.stream.state = .active
  span : readSpan s.stream.len.toNat s.stream.pos.toNat n = some n
  enough : n ≤ s.sin.length
  stream : t.stream = s.stream.read (s.sin.take n)
  sin : t.sin = s.sin.drop n
  sout : t.sout = s.sout ++ (s.stream.consume params (s.sin.take n)).2
  integ : t.integ = (s.integ || t.stream.rejected)

theorem State.Reads.advances {s : State} {a : BitVec 64} {n : Nat} (h : State.Reads { s with arg0 := a } n) :
    s.Advances n (State.read { s with arg0 := a } n) :=
  ⟨h.active, readSpan_self h.span, h.enough, rfl, rfl, rfl, rfl⟩

/-- A read of an active stream that succeeds, if only with the integrity error, went ahead. -/
theorem exists_advances_of_exec_sread {s t : State} {a : BitVec 64} (hact : s.stream.state = .active)
    (h : exec .sread { s with arg0 := a } = .next t) (hok : t.err = .ok ∨ t.err = .integrity) :
    ∃ n, s.Advances n t ∧ t.res.toNat = n ∧ t.err = if t.stream.rejected then .integrity else .ok := by
  rcases exec_sread_cases { s with arg0 := a } with ⟨e, hne, hne', heq⟩ | ⟨hdone, _⟩ | ⟨n, hreads, heq⟩
  · cases heq.symm.trans h
    exact absurd hok (not_or.mpr ⟨hne, hne'⟩)
  · cases hact.symm.trans hdone
  · cases heq.symm.trans h
    exact ⟨n, hreads.advances, hreads.toNat_res, rfl⟩

namespace State.Advances
variable {s t u : State} {m n : Nat}

theorem bound (h : s.Advances n t) : s.stream.pos.toNat + n < 2 ^ 64 := by
  have hbound := readSpan_bound h.span
  have hlen := s.stream.len.isLt
  have hpos := s.stream.pos.isLt
  omega

theorem toNat_pos (h : s.Advances n t) : t.stream.pos.toNat = s.stream.pos.toNat + n := by
  rw [h.stream, Stream.read_pos, List.length_take_of_le h.enough, BitVec.toNat_ofNat, Nat.mod_eq_of_lt h.bound]

/-- The stream is still active exactly when the read stopped before the end. -/
theorem state_eq (h : s.Advances n t) : t.stream.state = if t.stream.pos = s.stream.len then .done else .active := by
  rw [h.stream]
  exact Stream.read_state _ h.active

/-- Two reads that follow each other are one read of as many bytes. -/
theorem trans (h : s.Advances m t) (hact : t.stream.state = .active) (g : t.Advances n u) : s.Advances (m + n) u := by
  have hne : t.stream.pos ≠ s.stream.len := by
    intro hend
    cases hact.symm.trans (h.state_eq.trans (if_pos hend))
  have hstream : t.stream = (s.stream.consume params (s.sin.take m)).1 := by
    have hpos : (s.stream.consume params (s.sin.take m)).1.pos ≠ (s.stream.consume params (s.sin.take m)).1.len := by
      rw [(s.stream.consume_setup params _).len, Stream.consume_pos, ← Stream.read_pos, ← h.stream]
      exact hne
    rw [h.stream, Stream.read, Stream.finaliseAtEnd_of_ne hpos]
  have hlen : t.stream.len = s.stream.len := hstream ▸ (s.stream.consume_setup params _).len
  have hneNat : s.stream.pos.toNat + m ≠ s.stream.len.toNat := by
    rw [← h.toNat_pos]
    exact fun heq => hne (BitVec.eq_of_toNat_eq heq)
  obtain ⟨hmod, hspan⟩ := readSpan_add h.span hneNat (by rw [← h.toNat_pos, ← hlen]; exact g.span)
  have hm : (s.sin.take m).length = m := List.length_take_of_le h.enough
  have henough : m + n ≤ s.sin.length := by
    have h1 := h.enough
    have h2 := g.enough
    rw [h.sin, List.length_drop] at h2
    omega
  have hbytes : s.sin.take (m + n) = s.sin.take m ++ t.sin.take n := by rw [h.sin, List.take_add]
  have hconsume := Stream.consume_append params s.stream (s.sin.take m) (t.sin.take n) (by rw [hm]; exact hmod)
    (by rw [hm]; exact h.bound)
  rw [← hbytes, ← hstream] at hconsume
  refine ⟨h.active, hspan, henough, ?stream, ?sin, ?sout, ?integ⟩
  case stream => rw [g.stream, Stream.read, Stream.read, hconsume]
  case sin => rw [g.sin, h.sin, List.drop_drop]
  case sout => rw [g.sout, h.sout, hconsume, List.append_assoc, hstream]
  case integ =>
    have hgo : t.stream.rejected = false := by simp [Stream.rejected, hact]
    rw [g.integ, h.integ, hgo, Bool.or_false]

/-- The one read there is of so many bytes. -/
theorem exec_sread (h : s.Advances n t) {c : BitVec 64} (hc : c.toNat = n) :
    ∃ u, exec .sread { s with arg0 := c } = .next u ∧ u.sout = t.sout ∧ u.sin = t.sin ∧ u.stream = t.stream ∧
      u.integ = t.integ ∧ u.err = if t.stream.rejected then .integrity else .ok := by
  have hreads : State.Reads { s with arg0 := c } n := ⟨h.active, hc.symm ▸ h.span, h.enough⟩
  have hstream : (State.read { s with arg0 := c } n).stream = t.stream := h.stream.symm
  refine ⟨_, hreads.exec_sread, h.sout.symm, h.sin.symm, hstream, ?_, ?_⟩
  · rw [State.read_integ, hstream, h.integ]
  · rw [State.read_err, hstream]

end State.Advances

/-- Settles O43: the two reads compose to one of all their bytes, and the verdict is the stream's. -/
theorem twoReadsEqualOneRead : Obligations.TwoReadsEqualOneRead := by
  unfold Obligations.TwoReadsEqualOneRead
  intro s t1 t2 a b c hact h1 hok1 hact1 h2 hok2 hc
  obtain ⟨m, hadv1, hres1, -⟩ := exists_advances_of_exec_sread hact h1 (.inl hok1)
  obtain ⟨n, hadv2, hres2, herr2⟩ := exists_advances_of_exec_sread hact1 h2 hok2
  rw [herr2]
  exact (hadv1.trans hact1 hadv2).exec_sread (by rw [hc, hres1, hres2])

/-! ### Sequences of reads -/

/-- One turn of a sequence of reads: the first read succeeds, if only with the integrity error, and the rest follows (R204). -/
theorem readSequence_cons_eq_some {a : BitVec 64} {counts : List (BitVec 64)} {s u : State}
    (h : readSequence (a :: counts) s = some u) :
    ∃ t, exec .sread { s with arg0 := a } = .next t ∧ (t.err = .ok ∨ t.err = .integrity) ∧ readSequence counts t = some u := by
  rw [readSequence] at h
  split at h
  case h_1 t ht =>
    split at h
    case isTrue hok => exact ⟨t, ht, hok, h⟩
    case isFalse => cases h
  case h_2 | h_3 => cases h

/-- After a read that went ahead, further reads that do not fail only advance it: on an active stream they compose with it, on a
finished one they change nothing it speaks of (R203). -/
theorem State.Advances.of_readSequence {s t u : State} {counts : List (BitVec 64)} {n : Nat} (h : s.Advances n t)
    (hseq : readSequence counts t = some u) : ∃ m, s.Advances m u := by
  induction counts generalizing t n with
  | nil =>
    cases hseq
    exact ⟨n, h⟩
  | cons a counts ih =>
    obtain ⟨t', ht', hok, hrest⟩ := readSequence_cons_eq_some hseq
    by_cases hend : t.stream.pos = s.stream.len
    case pos =>
      have hdone : t.stream.state = .done := h.state_eq.trans (if_pos hend)
      have hsame : s.Advances n t' := by
        cases (exec_sread_of_done (s := { t with arg0 := a }) hdone).symm.trans ht'
        exact ⟨h.active, h.span, h.enough, h.stream, h.sin, h.sout, h.integ⟩
      exact ih hsame hrest
    case neg =>
      have hact : t.stream.state = .active := h.state_eq.trans (if_neg hend)
      obtain ⟨m, hadv, -, -⟩ := exists_advances_of_exec_sread hact ht' hok
      exact ih (h.trans hact hadv) hrest

/-- Settles O44: the first read goes ahead, the others advance it, and the position shows by how many bytes. -/
theorem readSizesDoNotMatter : Obligations.ReadSizesDoNotMatter := by
  unfold Obligations.ReadSizesDoNotMatter
  intro s t counts _ hact hne hseq
  obtain ⟨a, rest, rfl⟩ := List.exists_cons_of_ne_nil hne
  obtain ⟨t1, ht1, hok, hrest⟩ := readSequence_cons_eq_some hseq
  obtain ⟨n, hadv1, -, -⟩ := exists_advances_of_exec_sread hact ht1 hok
  obtain ⟨m, hadv⟩ := hadv1.of_readSequence hrest
  have hcount : (BitVec.ofNat 64 (t.stream.pos.toNat - s.stream.pos.toNat)).toNat = m := by
    have hbound := hadv.bound
    rw [hadv.toNat_pos, BitVec.toNat_ofNat]
    omega
  obtain ⟨u, hu, hsout, hsin, hstream, hinteg, -⟩ := hadv.exec_sread hcount
  exact ⟨u, hu, hsout, hsin, hstream, hinteg⟩

end Sys2Proof.Machine
end

section
/-! ## Decrypting what was encrypted (R194, R198, R199, R205)

`S.decrypting mac` is the decrypting stream that stands where the encrypting stream `S` stands: same key, IV, counter and MACs. It
takes the output of `S` back to the input, and its MACs follow, because both fold the plaintext. -/

namespace Sys2Proof.Machine

def Stream.decrypting (S : Stream) (mac : Bytes 8) : Stream := { S with mode := .dec, expmac := mac }

theorem xorStream_xorStream {b : List Byte} (ks : Block) (h : b.length ≤ 16) : xorStream (xorStream b ks) ks = b := by
  refine List.ext_getElem (by simpa using h) fun j _ hj => ?_
  simp [xorStream]

theorem Stream.startChunk_decrypting (S : Stream) (mac : Bytes 8) (p : Nat) :
    (S.decrypting mac).startChunk p = (S.startChunk p).decrypting mac := by
  unfold Stream.startChunk Stream.decrypting
  split <;> rfl

/-- One block: the output goes back to the block, and both streams fold the block (R199). -/
theorem Stream.blockStep_decrypting (cfg : Config) {S : Stream} (mac : Bytes 8) (p : Nat) {b : List Byte}
    (henc : S.mode = .enc) (hb : b.length ≤ 16) :
    (S.decrypting mac).blockStep cfg p (S.blockStep cfg p b).2 = ((S.blockStep cfg p b).1.decrypting mac, b) := by
  have hmode : (S.startChunk p).mode = .enc := (S.startChunk_setup p).mode.trans henc
  have hback : ((S.startChunk p).decrypting mac).blockOut cfg ((S.startChunk p).blockOut cfg b) = b :=
    xorStream_xorStream _ hb
  simp only [Stream.blockStep, Stream.startChunk_decrypting, hback]
  simp only [Stream.plainOf, Stream.decrypting, hmode]

/-- The output of a run of block steps begins with that of its first step; a step shorter than a block is the last. -/
theorem Stream.blockSteps_succ_split (cfg : Config) (n : Nat) (S : Stream) (p : Nat) (x : List Byte) :
    (Stream.blockSteps cfg (n + 1) S p x).2.take 16 = (S.blockStep cfg p (x.take 16)).2 ∧
    (Stream.blockSteps cfg (n + 1) S p x).2.drop 16 =
      (Stream.blockSteps cfg n (S.blockStep cfg p (x.take 16)).1 (p + 16) (x.drop 16)).2 := by
  have hfirst : (S.blockStep cfg p (x.take 16)).2.length = min 16 x.length := by
    rw [Stream.blockStep_out, length_xorStream, List.length_take]
    omega
  simp only [Stream.blockSteps]
  by_cases hlong : 16 ≤ x.length
  case pos => exact ⟨List.take_left' (by omega), List.drop_left' (by omega)⟩
  case neg =>
    have hlast : (Stream.blockSteps cfg n (S.blockStep cfg p (x.take 16)).1 (p + 16) (x.drop 16)).2 = [] := by
      refine List.eq_nil_of_length_eq_zero ?_
      rw [Stream.length_blockSteps, List.length_drop]
      omega
    rw [hlast, List.append_nil]
    exact ⟨List.take_of_length_le (by omega), List.drop_of_length_le (by omega)⟩

theorem Stream.blockSteps_decrypting (cfg : Config) (n : Nat) {S : Stream} (mac : Bytes 8) (p : Nat) (x : List Byte)
    (henc : S.mode = .enc) :
    Stream.blockSteps cfg n (S.decrypting mac) p (Stream.blockSteps cfg n S p x).2 =
      ((Stream.blockSteps cfg n S p x).1.decrypting mac, x.take (16 * n)) := by
  induction n generalizing S p x with
  | zero => simp [Stream.blockSteps]
  | succ n ih =>
    have henc' : (S.blockStep cfg p (x.take 16)).1.mode = .enc := (S.blockStep_setup cfg p _).mode.trans henc
    have hstep := Stream.blockStep_decrypting cfg mac p (b := x.take 16) henc (List.length_take_le 16 x)
    have hrest := ih (p + 16) (x.drop 16) henc'
    obtain ⟨htake, hdrop⟩ := Stream.blockSteps_succ_split cfg n S p x
    have hbytes : x.take 16 ++ (x.drop 16).take (16 * n) = x.take (16 * (n + 1)) := by
      rw [← List.take_add, Nat.mul_succ, Nat.add_comm]
    rw [Stream.blockSteps, htake, hdrop, hstep, hrest, hbytes]
    rfl

theorem Stream.consume_decrypting {S : Stream} (mac : Bytes 8) (x : List Byte) (henc : S.mode = .enc) :
    (S.decrypting mac).consume params (S.consume params x).2 = ((S.consume params x).1.decrypting mac, x) := by
  have hlen : (Stream.blockSteps params ((x.length + 15) / 16) S S.pos.toNat x).2.length = x.length := S.length_consume params x
  have hsteps := Stream.blockSteps_decrypting params ((x.length + 15) / 16) mac S.pos.toNat x henc
  rw [List.take_of_length_le (by omega)] at hsteps
  rw [S.consume_blocks params (x := x) rfl, Stream.consume_blocks params _ (congrArg (fun l => (l + 15) / 16) hlen), hlen,
    show (S.decrypting mac).pos = S.pos from rfl, hsteps]
  rfl

/-- Both streams finalise alike, so they end with the same MetaMac (R201). -/
theorem Stream.read_decrypting {S : Stream} (mac : Bytes 8) (x : List Byte) (henc : S.mode = .enc) :
    (S.decrypting mac).read (S.consume params x).2 = (S.read x).decrypting mac := by
  rw [Stream.read, Stream.consume_decrypting mac x henc, Stream.read]
  unfold Stream.finaliseAtEnd Stream.decrypting
  split <;> rfl

/-! ### The whole read of a fresh stream -/

section
variable {s : State} {mode : StreamMode} {key : Block} {iv mac : Bytes 8} {L : BitVec 64}

theorem State.reads_fresh (hS : s.stream = Stream.fresh mode key iv mac L) (hsin : s.sin.length = L.toNat)
    (hcount : L.toNat ≤ s.arg0.toNat) : s.Reads s.sin.length := by
  refine ⟨by rw [hS]; rfl, ?_, le_rfl⟩
  rw [hS, readSpan_eq_some_iff]
  exact .inl ⟨hcount.trans (Nat.le_add_left _ _), hsin⟩

/-- All of the input is read in one command. -/
theorem exec_sread_fresh (hS : s.stream = Stream.fresh mode key iv mac L) (hsin : s.sin.length = L.toNat)
    (hcount : L.toNat ≤ s.arg0.toNat) :
    ∃ t, exec .sread s = .next t ∧ t.stream = s.stream.read s.sin ∧ t.sout = s.sout ++ (s.stream.consume params s.sin).2 ∧
      t.integ = (s.integ || t.stream.rejected) ∧ t.err = if t.stream.rejected then .integrity else .ok := by
  refine ⟨_, (State.reads_fresh hS hsin hcount).exec_sread, ?_, ?_, rfl, rfl⟩
  · rw [State.read_stream, List.take_length]
  · rw [State.read_sout, List.take_length]

/-- It reaches the end. -/
theorem Stream.read_fresh_state {x : List Byte} (hx : x.length = L.toNat) :
    ((Stream.fresh mode key iv mac L).read x).state = .done := by
  have hend : ((Stream.fresh mode key iv mac L).read x).pos = L := by
    rw [Stream.read_pos, hx]
    simp [Stream.fresh]
  exact (Stream.read_state x rfl).trans (if_pos hend)

end

theorem Stream.fresh_decrypting (key : Block) (iv mac : Bytes 8) (L : BitVec 64) :
    (Stream.fresh .enc key iv (zeros 8) L).decrypting mac = Stream.fresh .dec key iv mac L := rfl

/-- `SOPENE` and one read of all of the plaintext `P`: an encrypting stream never fails the check. -/
theorem encrypt_whole {s : State} {P : List Byte} {a : BitVec 64} (hclosed : s.stream.state = .closed)
    (hlen : P.length = s.arg0.toNat) (hok : streamLen s.arg0 = true) (ha : P.length ≤ a.toNat) :
    ∃ s1 s2 key iv, exec .sopene s = .next s1 ∧ exec .sread { s1 with sin := P, arg0 := a } = .next s2 ∧ s2.err = .ok ∧
      s2.stream = (Stream.fresh .enc key iv (zeros 8) s.arg0).read P ∧
      s2.sout = ((Stream.fresh .enc key iv (zeros 8) s.arg0).consume params P).2 := by
  obtain ⟨key, iv, hS⟩ : ∃ key iv, s.openedEnc.stream = Stream.fresh .enc key iv (zeros 8) s.arg0 :=
    ⟨_, _, congrArg (Stream.fresh _ _ _ _) s.afterDraw_arg0⟩
  obtain ⟨s2, hs2, hstream, hsout, -, herr⟩ :=
    exec_sread_fresh (s := { s.openedEnc with err := .ok, sin := P, arg0 := a }) hS hlen (hlen ▸ ha)
  simp only [hS, show s.openedEnc.sout = [] from rfl, List.nil_append] at hstream hsout
  have haccepted : s2.stream.rejected = false := by
    rw [Bool.eq_false_iff, Ne, Stream.rejected_iff, hstream]
    rintro ⟨_, hdec, _⟩
    cases hdec.symm.trans (Stream.read_setup _ P).mode
  rw [haccepted] at herr
  exact ⟨_, s2, key, iv, exec_sopene_of_closed hclosed hok, hs2, herr, hstream, hsout⟩

/-- `SOPEND` with the tag that encrypting `P` ends with, and one read of all of the ciphertext. -/
theorem decrypt_whole {u : State} {P : List Byte} {a : BitVec 64} {key : Block} {iv : Bytes 8} {S : Stream}
    (hS : S = Stream.fresh .enc key iv (zeros 8) u.arg0) (hclosed : u.stream.state = .closed)
    (hnode : u.nk = { state := .file, key := key, iv := iv, mac := (S.read P).metamac })
    (hlen : P.length = u.arg0.toNat) (hok : streamLen u.arg0 = true) (ha : P.length ≤ a.toNat) :
    ∃ u1 u2, exec .sopend u = .next u1 ∧ exec .sread { u1 with sin := (S.consume params P).2, arg0 := a } = .next u2 ∧
      u2.sout = P ∧ u2.err = .ok ∧ u2.integ = false ∧ u2.stream.metamac = (S.read P).metamac := by
  have henc : S.mode = .enc := by rw [hS]; rfl
  have hopened : (u.openStream .dec u.nk.key u.nk.iv u.nk.mac).stream = S.decrypting (S.read P).metamac := by
    rw [hnode, hS]
    rfl
  have hfresh := hopened.trans (hS ▸ Stream.fresh_decrypting key iv _ u.arg0)
  obtain ⟨u2, hu2, hstream, hsout, hinteg, herr⟩ := exec_sread_fresh
    (s := { u.openStream .dec u.nk.key u.nk.iv u.nk.mac with err := .ok, sin := (S.consume params P).2, arg0 := a })
    hfresh ((S.length_consume params P).trans hlen) (hlen ▸ ha)
  simp only [hopened, S.consume_decrypting _ P henc, S.read_decrypting _ P henc] at hstream hsout
  have haccepted : u2.stream.rejected = false := by
    rw [Bool.eq_false_iff, Ne, Stream.rejected_iff, hstream]
    exact fun ⟨_, _, hne⟩ => hne rfl
  rw [haccepted] at herr hinteg
  refine ⟨_, u2, exec_sopend_of_closed hclosed hok (by rw [hnode]), hu2, hsout, herr, hinteg, ?_⟩
  rw [hstream]
  rfl

/-- Settles O45: the decrypting stream is `decrypting` of the encrypting one, so it reads the output back and ends with the
MetaMac it expects. -/
theorem decryptingWhatWasEncryptedRestoresIt : Obligations.DecryptingWhatWasEncryptedRestoresIt := by
  unfold Obligations.DecryptingWhatWasEncryptedRestoresIt
  intro s P a hclosed hlen hmin hmax ha
  have hok : streamLen s.arg0 = true := streamLen_of_bounds (hlen ▸ hmin) (hlen ▸ hmax)
  obtain ⟨s1, s2, key, iv, hs1, hs2, herr, hstream, hsout⟩ := encrypt_whole hclosed hlen.symm hok ha
  have hsetup := (Stream.fresh .enc key iv (zeros 8) s.arg0).read_setup P
  refine ⟨s1, s2, hs1, hs2, herr, ?done, ?length, fun u huclosed huarg hnode => ?decrypted⟩
  case done => rw [hstream, Stream.read_fresh_state hlen.symm]
  case length => rw [hsout, Stream.length_consume]
  case decrypted =>
    rw [hstream] at hnode
    rw [hstream, hsout]
    rw [← huarg] at hlen hok hnode hsetup ⊢
    refine decrypt_whole rfl huclosed (hnode.trans ?_) hlen.symm hok ha
    rw [show (Stream.read _ P).key = key from hsetup.key, show (Stream.read _ P).iv = iv from hsetup.iv]

end Sys2Proof.Machine
end

section
/-! ## The chunk boundaries (R230 to R232)

`nextBoundary` is the one description of the boundary set that later sections use: the least boundary above an offset.
`BoundariesAbove L b l` says that `l` is what stepping with it from `b` lists, and `boundariesAbove_boundaries` that the
sequence of R230 is such a list. -/

namespace Sys2Proof.Machine

/-! ### The closed form (R231) -/

theorem isBoundary_iff {L p : Nat} :
    isBoundary L p = true ↔
      p = 0 ∨ p < L ∧ (p ∈ growBoundaries ∨ growEnd < p ∧ (p - growEnd) % chunkFixed = 0) := by
  rw [and_or_left]
  simp only [isBoundary, Bool.or_eq_true, Bool.and_eq_true, beq_iff_eq, decide_eq_true_eq, List.contains_iff_mem,
    or_assoc, and_assoc]

theorem isBoundary_zero (L : Nat) : isBoundary L 0 = true := rfl

theorem lt_of_isBoundary_of_lt {L b p : Nat} (hlt : b < p) (h : isBoundary L p = true) : p < L :=
  ((isBoundary_iff.mp h).resolve_left (Nat.ne_zero_of_lt hlt)).1

theorem lt_of_isBoundary {L p : Nat} (hL : 1 ≤ L) (h : isBoundary L p = true) : p < L := by
  rcases isBoundary_iff.mp h with rfl | ⟨hlt, -⟩
  · exact hL
  · exact hlt

/-- Every boundary is a multiple of the growth unit (R232). -/
theorem mod_chunkUnit_of_isBoundary {L p : Nat} (h : isBoundary L p = true) : p % chunkUnit = 0 := by
  rcases isBoundary_iff.mp h with rfl | ⟨-, hgrow | ⟨hlt, hfixed⟩⟩
  · rfl
  · exact (show ∀ g ∈ growBoundaries, g % chunkUnit = 0 by decide) p hgrow
  · simp only [growEnd, chunkFixed, chunkUnit] at hlt hfixed ⊢
    omega

/-! ### The least boundary above an offset -/

/-- Above the end of the growing phase the boundaries are `chunkFixed` apart. -/
theorem boundaryAbove_of_growEnd_le {b : Nat} (h : growEnd ≤ b) :
    boundaryAbove b = growEnd + ((b - growEnd) / chunkFixed + 1) * chunkFixed := by
  have hnone : growBoundaries.find? (fun g => decide (b < g)) = none := by
    simp only [growEnd] at h
    simp [growBoundaries]
    omega
  rw [boundaryAbove, hnone]

theorem boundaryAbove_of_lt_growEnd {b : Nat} (h : b < growEnd) :
    growBoundaries.find? (fun g => decide (b < g)) = some (boundaryAbove b) := by
  have hsome : (growBoundaries.find? (fun g => decide (b < g))).isSome := by
    rw [List.find?_isSome]
    exact ⟨growEnd, by decide, decide_eq_true h⟩
  obtain ⟨g, hg⟩ := Option.isSome_iff_exists.mp hsome
  rw [boundaryAbove, hg]

theorem lt_boundaryAbove (b : Nat) : b < boundaryAbove b := by
  by_cases h : b < growEnd
  · simpa using List.find?_some (boundaryAbove_of_lt_growEnd h)
  · rw [boundaryAbove_of_growEnd_le (Nat.le_of_not_lt h)]
    simp only [growEnd, chunkFixed]
    omega

theorem isBoundary_boundaryAbove {L b : Nat} (h : boundaryAbove b < L) : isBoundary L (boundaryAbove b) = true := by
  refine isBoundary_iff.mpr (.inr ⟨h, ?_⟩)
  by_cases hb : b < growEnd
  · exact .inl (List.mem_of_find?_eq_some (boundaryAbove_of_lt_growEnd hb))
  · rw [boundaryAbove_of_growEnd_le (Nat.le_of_not_lt hb)]
    simp only [growEnd, chunkFixed]
    omega

theorem le_of_find?_lt_eq_some {l : List Nat} {a b p : Nat} (hsorted : l.Pairwise (· ≤ ·))
    (hfind : l.find? (fun g => decide (b < g)) = some a) (hp : p ∈ l) (hlt : b < p) : a ≤ p := by
  obtain ⟨-, before, after, rfl, hbefore⟩ := List.find?_eq_some_iff_append.mp hfind
  obtain ⟨-, hafter, -⟩ := List.pairwise_append.mp hsorted
  rcases List.mem_append.mp hp with hp | hp
  · simpa [hlt] using hbefore p hp
  · rcases List.mem_cons.mp hp with rfl | hp
    · exact le_rfl
    · exact List.rel_of_pairwise_cons hafter hp

theorem boundaryAbove_le {L b p : Nat} (hlt : b < p) (h : isBoundary L p = true) : boundaryAbove b ≤ p := by
  obtain ⟨-, hp⟩ := (isBoundary_iff.mp h).resolve_left (Nat.ne_zero_of_lt hlt)
  by_cases hb : b < growEnd
  case pos =>
    have hleast {g : Nat} (hg : g ∈ growBoundaries) (hbg : b < g) : boundaryAbove b ≤ g :=
      le_of_find?_lt_eq_some (by decide) (boundaryAbove_of_lt_growEnd hb) hg hbg
    rcases hp with hgrow | ⟨hend, -⟩
    · exact hleast hgrow hlt
    · exact (hleast (by decide) hb).trans hend.le
  case neg =>
    have hle : ∀ g ∈ growBoundaries, g ≤ growEnd := by decide
    rw [boundaryAbove_of_growEnd_le (Nat.le_of_not_lt hb)]
    rcases hp with hgrow | ⟨-, hfixed⟩
    · exact absurd (hle p hgrow) (by omega)
    · simp only [growEnd, chunkFixed] at hb hfixed ⊢
      omega

theorem nextBoundary_of_lt {L b : Nat} (h : boundaryAbove b < L) : nextBoundary L b = some (boundaryAbove b) := if_pos h

theorem nextBoundary_of_le {L b : Nat} (h : L ≤ boundaryAbove b) : nextBoundary L b = none := if_neg (Nat.not_lt.mpr h)

theorem nextBoundary_eq_none_iff {L b : Nat} :
    nextBoundary L b = none ↔ ∀ q, b < q → isBoundary L q = false := by
  rcases lt_or_ge (boundaryAbove b) L with hlt | hge
  · refine iff_of_false (by simp [nextBoundary_of_lt hlt]) fun hno => ?_
    cases (hno _ (lt_boundaryAbove b)).symm.trans (isBoundary_boundaryAbove hlt)
  · refine iff_of_true (nextBoundary_of_le hge) fun q hq => Bool.eq_false_iff.mpr fun hb => ?_
    exact absurd (lt_of_isBoundary_of_lt hq hb) (Nat.not_lt.mpr (hge.trans (boundaryAbove_le hq hb)))

theorem nextBoundary_eq_some_iff {L b p : Nat} :
    nextBoundary L b = some p ↔ b < p ∧ isBoundary L p = true ∧ ∀ q, b < q → isBoundary L q = true → p ≤ q := by
  constructor
  · intro h
    rcases lt_or_ge (boundaryAbove b) L with hlt | hge
    · cases (nextBoundary_of_lt hlt).symm.trans h
      exact ⟨lt_boundaryAbove b, isBoundary_boundaryAbove hlt, fun q => boundaryAbove_le⟩
    · cases (nextBoundary_of_le hge).symm.trans h
  · rintro ⟨hlt, hp, hleast⟩
    have hle := boundaryAbove_le hlt hp
    have hbelow : boundaryAbove b < L := hle.trans_lt (lt_of_isBoundary_of_lt hlt hp)
    rw [nextBoundary_of_lt hbelow, le_antisymm hle (hleast _ (lt_boundaryAbove b) (isBoundary_boundaryAbove hbelow))]

/-! ### Stepping from boundary to boundary -/

/-- `l` lists the boundaries of `L` above `b` in order. -/
inductive BoundariesAbove (L : Nat) : Nat → List Nat → Prop
  | last {b : Nat} (none_above : nextBoundary L b = none) : BoundariesAbove L b []
  | next {b p : Nat} {l : List Nat} (least_above : nextBoundary L b = some p) (rest : BoundariesAbove L p l) :
      BoundariesAbove L b (p :: l)

theorem BoundariesAbove.step {L b p : Nat} {l : List Nat} (habove : boundaryAbove b = p) (hlt : p < L)
    (hrest : BoundariesAbove L p l) : BoundariesAbove L b (p :: l) := by
  subst habove
  exact .next (nextBoundary_of_lt hlt) hrest

theorem BoundariesAbove.stop {L b p : Nat} (habove : boundaryAbove b = p) (hle : L ≤ p) : BoundariesAbove L b [] :=
  .last (nextBoundary_of_le (habove ▸ hle))

theorem BoundariesAbove.mem_iff {L b p : Nat} {l : List Nat} (h : BoundariesAbove L b l) :
    p ∈ l ↔ b < p ∧ isBoundary L p = true := by
  induction h with
  | last hnone =>
    refine iff_of_false List.not_mem_nil fun ⟨hlt, hp⟩ => ?_
    cases (nextBoundary_eq_none_iff.mp hnone p hlt).symm.trans hp
  | next hsome _ ih =>
    obtain ⟨hlt, ha, hleast⟩ := nextBoundary_eq_some_iff.mp hsome
    rw [List.mem_cons, ih]
    constructor
    · rintro (rfl | ⟨hap, hp⟩)
      · exact ⟨hlt, ha⟩
      · exact ⟨hlt.trans hap, hp⟩
    · rintro ⟨hbp, hp⟩
      exact (hleast p hbp hp).eq_or_lt.imp Eq.symm fun hap => ⟨hap, hp⟩

theorem BoundariesAbove.pairwise {L b : Nat} {l : List Nat} (h : BoundariesAbove L b l) : (b :: l).Pairwise (· < ·) := by
  refine List.pairwise_cons.mpr ⟨fun p hp => (h.mem_iff.mp hp).1, ?_⟩
  induction h with
  | last => exact .nil
  | next _ hrest ih => exact List.pairwise_cons.mpr ⟨fun p hp => (hrest.mem_iff.mp hp).1, ih⟩

/-- The boundaries above a later offset are among those above an earlier one. -/
theorem BoundariesAbove.exists_of_le {L a b : Nat} {l : List Nat} (h : BoundariesAbove L a l) (hle : a ≤ b) :
    ∃ l', BoundariesAbove L b l' ∧ l'.length ≤ l.length := by
  induction h with
  | last hnone =>
    have hno := nextBoundary_eq_none_iff.mp hnone
    exact ⟨[], .last (nextBoundary_eq_none_iff.mpr fun q hq => hno q (hle.trans_lt hq)), le_rfl⟩
  | @next _ p l hsome hrest ih =>
    obtain ⟨-, hp, hleast⟩ := nextBoundary_eq_some_iff.mp hsome
    rcases le_or_gt p b with hpb | hbp
    · obtain ⟨l', hl', hlen⟩ := ih hpb
      exact ⟨l', hl', hlen.trans (Nat.le_succ _)⟩
    · exact ⟨p :: l, .next (nextBoundary_eq_some_iff.mpr ⟨hbp, hp, fun q hq => hleast q (hle.trans_lt hq)⟩) hrest, le_rfl⟩

/-! ### The sequence of R230 -/

/-- Where the growing chunk `k` ends if the stream is long enough (R231). -/
def growPoint (k : Nat) : Nat := k * (k + 1) / 2 * chunkUnit

/-- Growing chunk `k + 1` is `k + 1` units long. -/
theorem boundaryAbove_growPoint {k : Nat} (h : k < chunkGrow) :
    boundaryAbove (growPoint k) = growPoint k + (k + 1) * chunkUnit ∧ growPoint k + (k + 1) * chunkUnit = growPoint (k + 1) :=
  (show ∀ k < chunkGrow, boundaryAbove (growPoint k) = growPoint k + (k + 1) * chunkUnit ∧
    growPoint k + (k + 1) * chunkUnit = growPoint (k + 1) by decide) k h

theorem growPoint_zero : growPoint 0 = 0 := rfl

theorem growPoint_chunkGrow : growPoint chunkGrow = growEnd := by decide

/-- From the end of the growing phase on, chunks are `chunkFixed` long. -/
theorem boundaryAbove_of_fixed {b : Nat} (hend : growEnd ≤ b) (haligned : (b - growEnd) % chunkFixed = 0) :
    boundaryAbove b = b + chunkFixed := by
  rw [boundaryAbove_of_growEnd_le hend]
  simp only [growEnd, chunkFixed] at hend haligned ⊢
  omega

theorem boundariesAbove_fixedPhase {L : Nat} (n : Nat) {cur : Nat} (hend : growEnd ≤ cur)
    (haligned : (cur - growEnd) % chunkFixed = 0) (hfuel : L ≤ cur + n * chunkFixed) :
    BoundariesAbove L cur (fixedPhase L n cur) := by
  induction n generalizing cur with
  | zero => exact .stop (boundaryAbove_of_fixed hend haligned) (by omega)
  | succ n ih =>
    rw [fixedPhase]
    split
    case isTrue hlt =>
      refine .step (boundaryAbove_of_fixed hend haligned) hlt (ih (hend.trans (Nat.le_add_right _ _)) ?_ ?_)
      · rw [Nat.sub_add_comm hend, Nat.add_mod_right, haligned]
      · rwa [Nat.add_assoc, Nat.add_comm chunkFixed, ← Nat.succ_mul]
    case isFalse hge => exact .stop (boundaryAbove_of_fixed hend haligned) (Nat.le_of_not_lt hge)

theorem fixedPhase_eq_nil {L cur : Nat} (n : Nat) (h : L ≤ cur + chunkFixed) : fixedPhase L n cur = [] := by
  cases n with
  | zero => rfl
  | succ n => exact if_neg (Nat.not_lt.mpr h)

/-- The growing phase and the fixed phase together; a stream that ends in the growing phase has no fixed chunks. -/
theorem boundariesAbove_phases {L m : Nat} (n : Nat) {k : Nat} (hk : k + n = chunkGrow) (hfuel : L ≤ m * chunkFixed) :
    BoundariesAbove L (growPoint k) ((growPhase L n (k + 1) (growPoint k)).1 ++
      fixedPhase L m (growPhase L n (k + 1) (growPoint k)).2) := by
  induction n generalizing k with
  | zero =>
    obtain rfl : k = chunkGrow := hk
    rw [growPoint_chunkGrow]
    exact boundariesAbove_fixedPhase m le_rfl (by simp) (hfuel.trans (Nat.le_add_left _ _))
  | succ n ih =>
    obtain ⟨habove, hpoint⟩ := boundaryAbove_growPoint (k := k) (by omega)
    rw [growPhase]
    split
    case isTrue hlt =>
      rw [hpoint] at habove hlt ⊢
      exact .step habove hlt (ih (by omega))
    case isFalse hge =>
      have hshort : (k + 1) * chunkUnit ≤ chunkFixed :=
        Nat.mul_le_mul_right chunkUnit (show k + 1 ≤ 8 by simp only [chunkGrow] at hk; omega)
      rw [fixedPhase_eq_nil m (by omega)]
      exact .stop habove (Nat.le_of_not_lt hge)

/-- The sequence of R230 is 0 and then what stepping from 0 lists. -/
theorem boundariesAbove_boundaries (L : Nat) : ∃ l, boundaries L = 0 :: l ∧ BoundariesAbove L 0 l := by
  have hfuel : L ≤ (L / chunkFixed + 1) * chunkFixed := by
    simp only [chunkFixed]
    omega
  have h := boundariesAbove_phases (k := 0) chunkGrow (Nat.zero_add _) hfuel
  rw [growPoint_zero] at h
  exact ⟨_, rfl, h⟩

/-! ### The number of boundaries (R232) -/

theorem length_growPhase_le (L n idx cur : Nat) : (growPhase L n idx cur).1.length ≤ n := by
  induction n generalizing idx cur with
  | zero => exact le_rfl
  | succ n ih =>
    rw [growPhase]
    split
    · exact Nat.succ_le_succ (ih _ _)
    · exact Nat.zero_le _

theorem length_fixedPhase_le (L n cur : Nat) : cur + (fixedPhase L n cur).length * chunkFixed ≤ max cur (L - 1) := by
  induction n generalizing cur with
  | zero => simp [fixedPhase]
  | succ n ih =>
    rw [fixedPhase]
    split
    · have hrest := ih (cur + chunkFixed)
      rw [List.length_cons, Nat.succ_mul]
      omega
    · simp

theorem length_boundaries_le {L : Nat} (hL : 1 ≤ L) : (boundaries L).length ≤ 8 + (L + 1048575) / 1048576 := by
  have hgrow := length_growPhase_le L chunkGrow 1 0
  have hfixed := length_fixedPhase_le L (L / chunkFixed + 1) (growPhase L chunkGrow 1 0).2
  simp only [boundaries, List.length_cons, List.length_append]
  simp only [chunkGrow, chunkFixed] at hgrow hfixed ⊢
  omega

/-! ### The statements about the sequence -/

/-- Settles O50: 0 is a boundary and heads the sequence, and the others are the boundaries above it. -/
theorem boundaryTestMatchesTheSequence : Obligations.BoundaryTestMatchesTheSequence := by
  unfold Obligations.BoundaryTestMatchesTheSequence
  intro L p _
  obtain ⟨l, heq, habove⟩ := boundariesAbove_boundaries L
  rw [heq, List.mem_cons, habove.mem_iff]
  constructor
  · exact fun hp => (Nat.eq_zero_or_pos p).imp_right fun hpos => ⟨hpos, hp⟩
  · rintro (rfl | ⟨-, hp⟩)
    · exact isBoundary_zero L
    · exact hp

/-- Settles O51: the members are boundaries, listed by stepping upwards. -/
theorem boundariesRiseBelowTheLength : Obligations.BoundariesRiseBelowTheLength := by
  unfold Obligations.BoundariesRiseBelowTheLength
  intro L hL
  obtain ⟨l, heq, habove⟩ := boundariesAbove_boundaries L
  refine ⟨by rw [heq]; rfl, heq ▸ habove.pairwise, fun p hp => ?_, length_boundaries_le hL⟩
  have hb : isBoundary L p = true := (boundaryTestMatchesTheSequence L p hL).mpr hp
  exact ⟨lt_of_isBoundary hL hb, mod_chunkUnit_of_isBoundary hb⟩

end Sys2Proof.Machine
end

section
/-! ## Chunks and fragments (R231, R241, R242): `BNDNEXT`, `PACKNEXT` (R243, R244) -/

namespace Sys2Proof.Machine

/-! ### The end of a chunk (R231) -/

theorem chunkEnd_of_some {L b p : Nat} (h : nextBoundary L b = some p) : chunkEnd L b = p := by
  rw [chunkEnd, h, Option.getD_some]

theorem chunkEnd_of_none {L b : Nat} (h : nextBoundary L b = none) : chunkEnd L b = L := by
  rw [chunkEnd, h, Option.getD_none]

/-- `e` ends a run of whole chunks from `b`. -/
structure EndsChunk (L b e : Nat) : Prop where
  after : b < e
  within : e ≤ L
  boundary : e = L ∨ isBoundary L e = true

theorem chunkEnd_endsChunk {L b : Nat} (hlt : b < L) : EndsChunk L b (chunkEnd L b) := by
  cases h : nextBoundary L b with
  | none =>
    rw [chunkEnd_of_none h]
    exact ⟨hlt, le_rfl, .inl rfl⟩
  | some p =>
    obtain ⟨hbp, hp, -⟩ := nextBoundary_eq_some_iff.mp h
    rw [chunkEnd_of_some h]
    exact ⟨hbp, (lt_of_isBoundary_of_lt hbp hp).le, .inr hp⟩

/-- No boundary lies inside a chunk. -/
theorem chunkEnd_le {L b p : Nat} (hlt : b < p) (hp : isBoundary L p = true) : chunkEnd L b ≤ p := by
  cases h : nextBoundary L b with
  | none => cases (nextBoundary_eq_none_iff.mp h p hlt).symm.trans hp
  | some q =>
    rw [chunkEnd_of_some h]
    obtain ⟨-, -, hleast⟩ := nextBoundary_eq_some_iff.mp h
    exact hleast p hlt hp

/-! ### `BNDNEXT` -/

theorem exec_bndnext_of_some {s : State} {p : Nat} (hlen : streamLen s.arg0 = true)
    (h : nextBoundary s.arg0.toNat s.arg1.toNat = some p) :
    exec .bndnext s = .next { s with res := BitVec.ofNat 64 p, noBoundary := false, err := .ok } := by
  simp only [exec, execBndnext, hlen, h]
  rfl

theorem exec_bndnext_of_none {s : State} (hlen : streamLen s.arg0 = true)
    (h : nextBoundary s.arg0.toNat s.arg1.toNat = none) :
    exec .bndnext s = .next { s with res := s.arg0, noBoundary := true, err := .ok } := by
  simp only [exec, execBndnext, hlen, h]
  simp [State.setRes, State.setNone, State.complete]

theorem exec_bndnext_of_badLen {s : State} (hlen : ¬streamLen s.arg0 = true) :
    exec .bndnext s = .next { s with err := .badLen } := by
  simp only [exec, execBndnext, if_neg hlen]
  rfl

/-- Settles O52: the answer is that of `nextBoundary`, and a boundary fits in `RES`. -/
theorem bndnextGivesTheLeastBoundaryAbove : Obligations.BndnextGivesTheLeastBoundaryAbove := by
  unfold Obligations.BndnextGivesTheLeastBoundaryAbove
  refine ⟨by decide, fun s => ⟨fun hmin hmax => ?accepted, fun hbad => exec_bndnext_of_badLen (not_streamLen hbad)⟩⟩
  have hlen : streamLen s.arg0 = true := (streamLen_iff _).mpr ⟨hmin, hmax⟩
  cases h : nextBoundary s.arg0.toNat s.arg1.toNat with
  | none => exact ⟨_, exec_bndnext_of_none hlen h, rfl, .inr ⟨rfl, rfl, nextBoundary_eq_none_iff.mp h⟩⟩
  | some p =>
    obtain ⟨hlt, hp, hleast⟩ := nextBoundary_eq_some_iff.mp h
    have hfits : (BitVec.ofNat 64 p).toNat = p := by
      rw [BitVec.toNat_ofNat, Nat.mod_eq_of_lt]
      exact (lt_of_isBoundary hmin hp).trans s.arg0.isLt
    refine ⟨_, exec_bndnext_of_some hlen h, rfl, .inl ⟨rfl, ?_⟩⟩
    rw [hfits]
    exact ⟨hlt, hp, hleast⟩

/-! ### The loop of `packlen` (R241) -/

/-- A run of chunks of `n` bytes is not full yet: the loop of R241 goes on. -/
abbrev Unfilled (P n : Nat) : Prop := P = packAll ∨ n < P

/-- A run of whole chunks from `b` to `e`, no shorter one of which is full. -/
structure LeastRun (L P b e : Nat) : Prop extends EndsChunk L b e where
  shorter : ∀ p, b < p → p < e → isBoundary L p = true → Unfilled P (p - b)

/-- The run of one chunk. -/
theorem leastRun_chunkEnd {L P b : Nat} (hlt : b < L) : LeastRun L P b (chunkEnd L b) :=
  ⟨chunkEnd_endsChunk hlt, fun _ hbp hpe hp => absurd hpe (Nat.not_lt.mpr (chunkEnd_le hbp hp))⟩

/-- One turn of the loop. -/
theorem LeastRun.extend {L P b e : Nat} (h : LeastRun L P b e) (hgo : Unfilled P (e - b)) (hlt : e < L) :
    LeastRun L P b (chunkEnd L e) := by
  have hend := chunkEnd_endsChunk hlt
  refine ⟨⟨h.after.trans hend.after, hend.within, hend.boundary⟩, fun p hbp hpe hp => ?_⟩
  rcases lt_trichotomy p e with hlt' | rfl | hgt
  · exact h.shorter p hbp hlt' hp
  · exact hgo
  · exact absurd hpe (Nat.not_lt.mpr (chunkEnd_le hgt hp))

theorem absorbChunks_of_end (L P b n : Nat) : absorbChunks L P b n L = L := by
  cases n with
  | zero => rfl
  | succ n => exact if_neg fun h => Nat.lt_irrefl L h.2

/-- With a turn for every boundary above `e` and one for the end of the stream, the loop stops at the least full run, or at the
end. -/
theorem LeastRun.loop {L P b e n : Nat} {l : List Nat} (h : LeastRun L P b e) (habove : BoundariesAbove L e l)
    (hfuel : l.length < n) :
    LeastRun L P b (absorbChunks L P b n e) ∧
      (absorbChunks L P b n e < L → ¬Unfilled P (absorbChunks L P b n e - b)) := by
  induction n generalizing e l with
  | zero => exact absurd hfuel (Nat.not_lt_zero _)
  | succ n ih =>
    rw [absorbChunks]
    split
    case isFalse hstop => exact ⟨h, fun hlt hgo => hstop ⟨hgo, hlt⟩⟩
    case isTrue hgo =>
      have hnext := h.extend hgo.1 hgo.2
      cases habove with
      | last hnone =>
        rw [chunkEnd_of_none hnone] at hnext ⊢
        rw [absorbChunks_of_end]
        exact ⟨hnext, fun hlt => absurd hlt (Nat.lt_irrefl L)⟩
      | next hsome hrest =>
        rw [chunkEnd_of_some hsome] at hnext ⊢
        exact ih hnext hrest (Nat.lt_of_succ_lt_succ hfuel)

/-- The bound of R232 on the boundaries is below the turns that `packlen` gives its loop. -/
theorem exists_boundariesAbove {L : Nat} (hL : 1 ≤ L) (b : Nat) :
    ∃ l, BoundariesAbove L b l ∧ l.length < L / chunkFixed + 9 := by
  obtain ⟨l, heq, habove⟩ := boundariesAbove_boundaries L
  obtain ⟨l', habove', hle⟩ := habove.exists_of_le (Nat.zero_le b)
  have hcount := length_boundaries_le hL
  rw [heq, List.length_cons] at hcount
  refine ⟨l', habove', ?_⟩
  simp only [chunkFixed]
  omega

/-- What `packlen` returns (R241): the length of the least full run of chunks, or of all chunks that are left. -/
theorem packlen_leastRun {L b : Nat} (P : Nat) (hlt : b < L) :
    LeastRun L P b (b + packlen L P b) ∧ (b + packlen L P b < L → ¬Unfilled P (packlen L P b)) := by
  obtain ⟨l, habove, hfuel⟩ := exists_boundariesAbove (Nat.one_le_of_lt hlt) (chunkEnd L b)
  have hloop := (leastRun_chunkEnd (P := P) hlt).loop habove hfuel
  rwa [packlen, Nat.add_sub_of_le hloop.1.after.le]

/-! ### `PACKNEXT` -/

theorem exec_packnext_of_accepted {s : State} (hlen : streamLen s.arg0 = true) (hpack : packSize s.packsz = true)
    (hb : isBoundary s.arg0.toNat s.arg1.toNat = true) :
    exec .packnext s =
      .next { s with res := BitVec.ofNat 64 (packlen s.arg0.toNat s.packsz.toNat s.arg1.toNat), err := .ok } := by
  simp only [exec, execPacknext, hlen, hpack, hb]
  rfl

theorem exec_packnext_of_refused {s : State}
    (h : ¬(streamLen s.arg0 = true ∧ packSize s.packsz = true ∧ isBoundary s.arg0.toNat s.arg1.toNat = true)) :
    exec .packnext s = .next { s with err := .badLen } := by
  simp only [exec, execPacknext, Bool.and_eq_true, and_assoc, if_neg h]
  rfl

theorem packSize_iff (v : BitVec 64) : packSize v = true ↔ v.toNat ≤ 2 ^ 63 - 1 ∨ v.toNat = 2 ^ 64 - 1 := by
  rw [packSize, Bool.or_eq_true, decide_eq_true_iff, beq_iff_eq]
  rfl

/-- Settles O53: the checks, and the run that `packlen` measures. -/
theorem packnextGivesTheLeastFullFragment : Obligations.PacknextGivesTheLeastFullFragment := by
  unfold Obligations.PacknextGivesTheLeastFullFragment
  refine ⟨by decide, fun s hbad => exec_packnext_of_refused ?refused, fun s hmin hmax hsize hb => ?accepted⟩
  case refused =>
    rintro ⟨hlen, hpack, hb⟩
    rw [packSize_iff] at hpack
    rcases hbad with hzero | hlong | ⟨hge, hne⟩ | hno
    · exact not_streamLen (.inl hzero) hlen
    · exact not_streamLen (.inr hlong) hlen
    · omega
    · cases hno.symm.trans hb
  case accepted =>
    have hlen : streamLen s.arg0 = true := (streamLen_iff _).mpr ⟨hmin, hmax⟩
    obtain ⟨hrun, hfull⟩ := packlen_leastRun s.packsz.toNat (lt_of_isBoundary hmin hb)
    have hfits : (BitVec.ofNat 64 (packlen s.arg0.toNat s.packsz.toNat s.arg1.toNat)).toNat =
        packlen s.arg0.toNat s.packsz.toNat s.arg1.toNat := by
      rw [BitVec.toNat_ofNat, Nat.mod_eq_of_lt]
      exact (Nat.le_add_left _ _).trans_lt (hrun.within.trans_lt s.arg0.isLt)
    refine ⟨_, _, exec_packnext_of_accepted hlen ((packSize_iff _).mpr hsize) hb, rfl, rfl, ?_⟩
    rw [hfits]
    exact ⟨hrun.after, hrun.within, hrun.boundary, fun hlt => (not_or.mp (hfull hlt)).imp_right Nat.le_of_not_lt, hrun.shorter⟩

/-! ### The fragment sequence (R242) -/

theorem fragments_of_end (L P n : Nat) : fragments L P n L = [] := by
  cases n with
  | zero => rfl
  | succ n => exact if_neg (Nat.lt_irrefl L)

theorem fragments_succ {L P b : Nat} (n : Nat) (hlt : b < L) :
    fragments L P (n + 1) b = packlen L P b :: fragments L P n (b + packlen L P b) := if_pos hlt

/-- The fragments from an offset on reach the end of the stream, by steps of at least one byte that end at boundaries. -/
theorem fragments_cover {L P b : Nat} (n : Nat) (hle : b ≤ L) (hb : b = L ∨ isBoundary L b = true) (hfuel : L ≤ b + n) :
    b + (fragments L P n b).sum = L ∧ (∀ k ∈ fragments L P n b, 1 ≤ k) ∧
      ∀ j, b + ((fragments L P n b).take j).sum = L ∨ isBoundary L (b + ((fragments L P n b).take j).sum) = true := by
  induction n generalizing b with
  | zero =>
    obtain rfl : b = L := le_antisymm hle hfuel
    simp [fragments]
  | succ n ih =>
    rcases hle.eq_or_lt with rfl | hlt
    · simp [fragments_of_end]
    obtain ⟨hrun, -⟩ := packlen_leastRun P hlt
    have hafter := hrun.after
    obtain ⟨hsum, hpos, hends⟩ := ih hrun.within hrun.boundary (by omega)
    rw [fragments_succ n hlt, List.sum_cons, ← Nat.add_assoc]
    refine ⟨hsum, List.forall_mem_cons.mpr ⟨by omega, hpos⟩, fun j => ?_⟩
    cases j with
    | zero => exact hb
    | succ j =>
      rw [List.take_succ_cons, List.sum_cons, ← Nat.add_assoc]
      exact hends j

/-- Settles O54: the fragments from 0, which is a boundary. -/
theorem fragmentsCoverTheStream : Obligations.FragmentsCoverTheStream := by
  unfold Obligations.FragmentsCoverTheStream
  intro L P _
  have hcover := fragments_cover (P := P) L (Nat.zero_le L) (.inr (isBoundary_zero L)) (Nat.le_add_left L 0)
  simp only [Nat.zero_add] at hcover
  obtain ⟨hsum, hpos, hends⟩ := hcover
  exact ⟨hsum, hpos, fun j _ => hends j⟩

end Sys2Proof.Machine
end

section
/-! ## The chunk MAC and the MetaMac (R234 to R240)

R240 goes through the plaintext chunk by chunk, the block steps go through the input block by block. `Stream.RunsInnerLoop` says
that the block steps within one chunk are the inner loop of R240; `Stream.AtChunk` is where a stream stands between two chunks. -/

namespace Sys2Proof.Machine

/-! ### The formulas (R234 to R238) -/

theorem getElem_macAcc (acc : Block) (x : List Byte) (i : Fin 16) : (macAcc acc x)[i] = acc[i] ^^^ x.getD i 0 := by
  simp [macAcc]

/-- Settles O35: the formulas byte by byte. -/
theorem macFunctionsFollowTheirFormulas : Obligations.MacFunctionsFollowTheirFormulas := by
  unfold Obligations.MacFunctionsFollowTheirFormulas
  refine ⟨fun v i => ⟨getElem_joinHalves_left v v i, getElem_joinHalves_right v v i⟩,
    fun acc x i => ⟨fun _ => ?inside, fun hlong => ?beyond⟩, fun k f acc d hd => ?fold, fun f i => ?pairs⟩
  case inside => exact getElem_macAcc acc x i
  case beyond =>
    rw [getElem_macAcc, List.getD_eq_default _ _ hlong]
    exact BitVec.xor_zero
  case fold =>
    have hxor : xorBytes f acc = d := by
      ext i hi : 1
      rw [getElem_xorBytes]
      exact (hd ⟨i, hi⟩).symm
    rw [macFold, hxor]
  case pairs => simp [metamac]

/-! ### The MACs of a run of block steps -/

/-- A block step adds the plaintext of its block to the chunk MAC (R198 (e), R199). -/
theorem Stream.blockStep_macs (cfg : Config) (S : Stream) (p : Nat) (b : List Byte) :
    (S.blockStep cfg p b).1.filemac = (S.startChunk p).filemac ∧
    (S.blockStep cfg p b).1.chunkmac = macBlock cfg S.key (S.startChunk p).chunkmac (S.plainOf b (S.blockStep cfg p b).2) := by
  have hsetup := S.startChunk_setup p
  simp only [Stream.blockStep, Stream.plainOf, hsetup.mode, hsetup.key, and_self]

theorem Stream.plainOf_take (S : Stream) (x o : List Byte) (n : Nat) :
    (S.plainOf x o).take n = S.plainOf (x.take n) (o.take n) := by
  unfold Stream.plainOf
  split <;> rfl

theorem Stream.plainOf_drop (S : Stream) (x o : List Byte) (n : Nat) :
    (S.plainOf x o).drop n = S.plainOf (x.drop n) (o.drop n) := by
  unfold Stream.plainOf
  split <;> rfl

theorem Stream.plainOf_of_setup {S T : Stream} (h : S.SameSetup T) (x o : List Byte) : T.plainOf x o = S.plainOf x o := by
  unfold Stream.plainOf
  rw [h.mode]

/-- The plaintext of the first block of a run, and of the rest of it (R199). -/
theorem Stream.plainOf_blockSteps_succ (cfg : Config) (n : Nat) (S : Stream) (p : Nat) (x : List Byte) :
    (S.plainOf x (Stream.blockSteps cfg (n + 1) S p x).2).take 16 = S.plainOf (x.take 16) (S.blockStep cfg p (x.take 16)).2 ∧
    (S.plainOf x (Stream.blockSteps cfg (n + 1) S p x).2).drop 16 =
      S.plainOf (x.drop 16) (Stream.blockSteps cfg n (S.blockStep cfg p (x.take 16)).1 (p + 16) (x.drop 16)).2 := by
  obtain ⟨htake, hdrop⟩ := Stream.blockSteps_succ_split cfg n S p x
  rw [Stream.plainOf_take, Stream.plainOf_drop, htake, hdrop]
  exact ⟨rfl, rfl⟩

/-- `n` block steps from offset `p` over `x` leave the file MAC `f`, and the chunk MAC that the inner loop of R240 makes of `c` and
their plaintext. -/
def Stream.RunsInnerLoop (cfg : Config) (n : Nat) (S : Stream) (p : Nat) (x : List Byte) (f c : Block) : Prop :=
  (Stream.blockSteps cfg n S p x).1.filemac = f ∧
  (Stream.blockSteps cfg n S p x).1.chunkmac =
    chunkMacBlocks cfg S.key n c (S.plainOf x (Stream.blockSteps cfg n S p x).2)

/-- One more block in front: its step starts from the MACs that step (a) of R198 leaves. -/
theorem Stream.RunsInnerLoop.succ {cfg : Config} {n : Nat} {S T : Stream} {p : Nat} {x : List Byte}
    (hT : (S.blockStep cfg p (x.take 16)).1 = T)
    (h : Stream.RunsInnerLoop cfg n T (p + 16) (x.drop 16) T.filemac T.chunkmac) :
    Stream.RunsInnerLoop cfg (n + 1) S p x (S.startChunk p).filemac (S.startChunk p).chunkmac := by
  subst hT
  have hsetup := S.blockStep_setup cfg p (x.take 16)
  obtain ⟨hfile, hchunk⟩ := S.blockStep_macs cfg p (x.take 16)
  obtain ⟨hfirst, hrest⟩ := S.plainOf_blockSteps_succ cfg n p x
  unfold Stream.RunsInnerLoop
  rw [chunkMacBlocks, hfirst, hrest, ← hchunk, ← hsetup.key, ← Stream.plainOf_of_setup hsetup, ← hfile]
  exact h

/-- Block steps that meet no boundary only add their plaintext to the chunk MAC. -/
theorem Stream.runsInnerLoop_inside (cfg : Config) (n : Nat) (S : Stream) (p : Nat) (x : List Byte)
    (hinside : ∀ q, p ≤ q → q < p + 16 * n → isBoundary S.len.toNat q = false) :
    Stream.RunsInnerLoop cfg n S p x S.filemac S.chunkmac := by
  induction n generalizing S p x with
  | zero => exact ⟨rfl, rfl⟩
  | succ n ih =>
    have hstart : S.startChunk p = S := if_neg (Bool.eq_false_iff.mp (hinside p le_rfl (by omega)))
    have hlen := (S.blockStep_setup cfg p (x.take 16)).len
    have hrest := ih (S.blockStep cfg p (x.take 16)).1 (p + 16) (x.drop 16)
      fun q hq hlt => hlen ▸ hinside q (by omega) (by omega)
    have hsucc := hrest.succ rfl
    rwa [hstart] at hsucc

/-- The file MAC after the fold that starting a chunk at `p` makes; there is none at offset 0 (R236, R239). -/
def Stream.foldedMac (S : Stream) (p : Nat) : Block := if p = 0 then S.filemac else macFold S.key S.filemac S.chunkmac

/-- Block steps from a boundary that meet no further one: the chunk before is folded, and the chunk MAC starts again. -/
theorem Stream.runsInnerLoop_chunk (cfg : Config) {n : Nat} (S : Stream) {p : Nat} (x : List Byte) (hn : 1 ≤ n)
    (hb : isBoundary S.len.toNat p = true) (hinside : ∀ q, p < q → q < p + 16 * n → isBoundary S.len.toNat q = false) :
    Stream.RunsInnerLoop cfg n S p x (S.foldedMac p) (macReset S.iv) := by
  obtain ⟨n, rfl⟩ := Nat.exists_eq_add_of_le' hn
  have hstart : S.startChunk p = { S with filemac := S.foldedMac p, chunkmac := macReset S.iv } := if_pos hb
  have hlen := (S.blockStep_setup cfg p (x.take 16)).len
  have hrest := (S.blockStep cfg p (x.take 16)).1.runsInnerLoop_inside cfg n (p + 16) (x.drop 16)
    fun q hq hlt => hlen ▸ hinside q (by omega) (by omega)
  have hsucc := hrest.succ rfl
  rwa [hstart] at hsucc

/-! ### The chunks of a stream -/

/-- The inner loop looks only at the bytes its blocks reach. -/
theorem chunkMacBlocks_take (cfg : Config) (k : Block) (n : Nat) (c : Block) (x : List Byte) :
    chunkMacBlocks cfg k n c (x.take (16 * n)) = chunkMacBlocks cfg k n c x := by
  induction n generalizing c x with
  | zero => rfl
  | succ n ih =>
    have hrest : (x.take (16 * (n + 1))).drop 16 = (x.drop 16).take (16 * n) := by
      rw [List.drop_take, Nat.mul_succ, Nat.add_sub_cancel]
    rw [chunkMacBlocks, chunkMacBlocks, hrest, ih, List.take_take, Nat.min_eq_left (by omega)]

/-- One turn of the outer loop of R240: the fold over the chunk from `lo` to `hi`. -/
def turnChunk (cfg : Config) (k : Block) (v : Bytes 8) (P : List Byte) (lo hi : Nat) (f : Block) : Block :=
  macFold k f (chunkMacBlocks cfg k ((hi - lo + 15) / 16) (macReset v) ((P.take hi).drop lo))

theorem foldChunks_cons {cfg : Config} {k : Block} {v : Bytes 8} {P : List Byte} {b e : Nat} {l : List Nat} {f : Block}
    (he : chunkEnd P.length b = e) (hle : e ≤ P.length) :
    foldChunks cfg k v P (b :: l) f = foldChunks cfg k v P l (turnChunk cfg k v P b e f) := by
  have hlen : ((P.take e).drop b).length = e - b := by rw [List.length_drop, List.length_take_of_le hle]
  simp only [foldChunks, he, hlen, turnChunk]

theorem mod_16_of_isBoundary {L p : Nat} (h : isBoundary L p = true) : p % 16 = 0 := by
  have hunit := mod_chunkUnit_of_isBoundary h
  simp only [chunkUnit] at hunit
  omega

/-- The stream `S` stands at boundary `b`, `x` is the input that is left, and `P` is the plaintext of the whole stream. -/
structure Stream.AtChunk (cfg : Config) (S : Stream) (b : Nat) (x P : List Byte) : Prop where
  boundary : isBoundary P.length b = true
  before : b < P.length
  len : S.len.toNat = P.length
  left : x.length = P.length - b
  plain : S.plainOf x (Stream.blockSteps cfg ((x.length + 15) / 16) S b x).2 = P.drop b

/-- The stream after all of the input that is left. -/
abbrev Stream.rest (cfg : Config) (S : Stream) (b : Nat) (x : List Byte) : Stream :=
  (Stream.blockSteps cfg ((x.length + 15) / 16) S b x).1

/-- The last chunk. -/
theorem Stream.AtChunk.last {cfg : Config} {S : Stream} {b : Nat} {x P : List Byte} (h : S.AtChunk cfg b x P)
    (hnone : nextBoundary P.length b = none) :
    (S.rest cfg b x).foldedMac P.length = turnChunk cfg S.key S.iv P b P.length (S.foldedMac b) := by
  have hbefore := h.before
  have hleft := h.left
  obtain ⟨hfile, hchunk⟩ := S.runsInnerLoop_chunk cfg (n := (x.length + 15) / 16) x (by omega) (h.len ▸ h.boundary)
    fun q hq _ => h.len ▸ nextBoundary_eq_none_iff.mp hnone q hq
  rw [Stream.foldedMac, if_neg (by omega), hfile, hchunk, h.plain, turnChunk, List.take_length, hleft,
    (Stream.blockSteps_setup cfg _ S b x).key]

/-- A chunk that ends at the boundary `p`: its blocks are a turn of the outer loop, and the stream stands at `p`. -/
theorem Stream.AtChunk.next {cfg : Config} {S : Stream} {b p : Nat} {x P : List Byte} (h : S.AtChunk cfg b x P)
    (hsome : nextBoundary P.length b = some p) :
    ∃ T y, S.SameSetup T ∧ T.AtChunk cfg p y P ∧ T.rest cfg p y = S.rest cfg b x ∧
      T.foldedMac p = turnChunk cfg S.key S.iv P b p (S.foldedMac b) := by
  obtain ⟨hbp, hp, hleast⟩ := nextBoundary_eq_some_iff.mp hsome
  have hpL := lt_of_isBoundary_of_lt hbp hp
  have hleft := h.left
  have hmodp := mod_16_of_isBoundary hp
  have hmodb := mod_16_of_isBoundary h.boundary
  obtain ⟨m, hm⟩ : ∃ m, p = b + 16 * m := ⟨(p - b) / 16, by omega⟩
  have hblocks : (x.length + 15) / 16 = m + ((x.drop (16 * m)).length + 15) / 16 := by
    rw [List.length_drop]
    omega
  have hsetup := Stream.blockSteps_setup cfg m S b x
  have hfirst : (Stream.blockSteps cfg m S b x).2.length = 16 * m := by
    rw [Stream.length_blockSteps]
    omega
  have hall := Stream.blockSteps_add cfg m (((x.drop (16 * m)).length + 15) / 16) S b x
  rw [← hblocks, ← hm] at hall
  have hplain := h.plain
  rw [hall] at hplain
  obtain ⟨hfile, hchunk⟩ := S.runsInnerLoop_chunk cfg (n := m) x (by omega) (h.len ▸ h.boundary)
    fun q hq hlt => h.len ▸ Bool.eq_false_iff.mpr fun hb => absurd (hleast q hq hb) (by omega)
  refine ⟨(Stream.blockSteps cfg m S b x).1, x.drop (16 * m), hsetup, ⟨hp, hpL, hsetup.len ▸ h.len, ?left, ?plain⟩,
    ?rest, ?mac⟩
  case left =>
    rw [List.length_drop]
    omega
  case plain =>
    rw [Stream.plainOf_of_setup hsetup]
    have hdrop := congrArg (List.drop (16 * m)) hplain
    rwa [Stream.plainOf_drop, List.drop_left' hfirst, List.drop_drop, ← hm] at hdrop
  case rest => rw [Stream.rest, Stream.rest, hall]
  case mac =>
    have htake := congrArg (List.take (16 * m)) hplain
    rw [Stream.plainOf_take, List.take_left' hfirst] at htake
    have hbytes : (P.take p).drop b = (P.drop b).take (16 * m) := by rw [List.drop_take, hm, Nat.add_sub_cancel_left]
    have hcount : (p - b + 15) / 16 = m := by omega
    rw [Stream.foldedMac, if_neg (Nat.ne_zero_of_lt hbp), hfile, hchunk, ← chunkMacBlocks_take, Stream.plainOf_take,
      List.take_of_length_le hfirst.le, htake, hsetup.key, turnChunk, hcount, hbytes]

/-- Block steps from a boundary to the end, and the last fold, are the outer loop of R240 over the chunks that are left. -/
theorem Stream.AtChunk.foldedMac_rest {cfg : Config} {S : Stream} {b : Nat} {x P : List Byte} {l : List Nat}
    (h : S.AtChunk cfg b x P) (habove : BoundariesAbove P.length b l) :
    (S.rest cfg b x).foldedMac P.length = foldChunks cfg S.key S.iv P (b :: l) (S.foldedMac b) := by
  induction habove generalizing S x with
  | last hnone =>
    rw [h.last hnone, foldChunks_cons (chunkEnd_of_none hnone) le_rfl]
    rfl
  | next hsome _ ih =>
    obtain ⟨T, y, hsetup, hT, hrest, hmac⟩ := h.next hsome
    rw [← hrest, ih hT, hmac, hsetup.key, hsetup.iv, foldChunks_cons (chunkEnd_of_some hsome) hT.before.le]

/-! ### The whole read -/

/-- A read to the end makes the last fold and takes the tag of it (R201). -/
theorem Stream.read_metamac_of_end {S : Stream} {x : List Byte} (hpos : S.pos = 0) (hx : x.length = S.len.toNat)
    (hmin : 1 ≤ x.length) : (S.read x).metamac = Machine.metamac ((S.rest params 0 x).foldedMac x.length) := by
  have hend : (S.consume params x).1.pos = (S.consume params x).1.len := by
    rw [(S.consume_setup params x).len, Stream.consume_pos, hpos, hx]
    simp
  have hzero : S.pos.toNat = 0 := by rw [hpos]; rfl
  have hfold : (S.rest params 0 x).foldedMac x.length =
      macFold (S.rest params 0 x).key (S.rest params 0 x).filemac (S.rest params 0 x).chunkmac :=
    if_neg (Nat.ne_zero_of_lt hmin)
  rw [Stream.read, Stream.finaliseAtEnd_of_end hend, S.consume_blocks params (x := x) rfl, hzero, hfold]
  rfl

/-- A fresh stream stands at boundary 0, and its whole read is the outer loop of R240 over all the chunks. -/
theorem Stream.read_fresh_metamac {mode : StreamMode} {key : Block} {iv mac : Bytes 8} {L : BitVec 64} {S : Stream}
    {x : List Byte}
    (hS : S = Stream.fresh mode key iv mac L) (hx : x.length = L.toNat) (hmin : 1 ≤ x.length) :
    (S.read x).metamac = streamMac params key iv (S.plainOf x (S.consume params x).2) := by
  obtain ⟨hpos, hlen, hkey, hiv, hfile⟩ : S.pos = 0 ∧ S.len = L ∧ S.key = key ∧ S.iv = iv ∧ S.filemac = zeros 16 := by
    subst hS
    exact ⟨rfl, rfl, rfl, rfl, rfl⟩
  have hout : (S.consume params x).2 = (Stream.blockSteps params ((x.length + 15) / 16) S 0 x).2 := by
    rw [S.consume_blocks params (x := x) rfl, hpos]
    rfl
  have hP : (S.plainOf x (S.consume params x).2).length = x.length := by
    unfold Stream.plainOf
    split
    · rfl
    · exact S.length_consume params x
  have hchunk : S.AtChunk params 0 x (S.plainOf x (S.consume params x).2) :=
    ⟨isBoundary_zero _, hP ▸ hmin, by rw [hP, hlen, hx], hP.symm, by rw [hout, List.drop_zero]⟩
  obtain ⟨l, heq, habove⟩ := boundariesAbove_boundaries (S.plainOf x (S.consume params x).2).length
  rw [Stream.read_metamac_of_end hpos (hlen ▸ hx) hmin, streamMac, heq, ← hkey, ← hiv, ← hfile]
  refine congrArg Machine.metamac ?_
  rw [← hP]
  exact hchunk.foldedMac_rest habove

/-- Settles O46: the stream is a fresh one, and the plaintext is its input or its output by its mode. -/
theorem metaMacIsTheMacOfThePlaintext : Obligations.MetaMacIsTheMacOfThePlaintext := by
  unfold Obligations.MetaMacIsTheMacOfThePlaintext
  intro s mode key iv expmac L hS hmin _ hsin hcount hsout
  obtain ⟨t, ht, hstream, hout, -⟩ := exec_sread_fresh (mac := expmac) hS hsin hcount
  rw [hsout, List.nil_append] at hout
  refine ⟨t, ht, ?done, ?tag⟩
  case done =>
    rw [hstream, hS]
    exact Stream.read_fresh_state hsin
  case tag =>
    have htag := Stream.read_fresh_metamac hS hsin (hsin ▸ hmin)
    rw [← hstream, ← hout, hS] at htag
    exact htag

end Sys2Proof.Machine
end

section
/-! ## Key slots (R271, R272) and the password derivation (R290, R291): `KLOAD`, `KCLEAR`, `PWKDF` -/

namespace Sys2Proof

/-- The word of a command that names a destination slot only (format D of R91). -/
theorem assemble_sd (o : BitVec 8) (sd : Slot) :
    assemble o 0 sd = o.zeroExtend 16 <<< 8 ||| BitVec.ofNat 16 sd := by
  simp [assemble_sa_sd]

namespace Machine

/-! ### `KLOAD` and `KCLEAR` -/

theorem exec_kload_of_holds (sd : Slot) {s : State} {b : Block} (h : s.holds b.toList) :
    exec (.kload sd) s = .next { s.setSlot sd b with err := .ok } := by
  calc exec (.kload sd) s
      = .next { s.setSlot sd (sliceBytes 16 0 s.operand) with err := .ok } := if_pos (oneBlockLen_of_holds h)
    _ = .next { s.setSlot sd b with err := .ok } := by rw [State.operand_of_holds h, sliceBytes_toList]

theorem exec_kload_of_badLen (sd : Slot) {s : State} (h : s.ilen ≠ 16) :
    exec (.kload sd) s = .next { s with err := .badLen } :=
  if_neg (mt (oneBlockLen_iff _).mp h)

theorem State.clearSlot_self (s : State) (sd : Slot) :
    (s.clearSlot sd).k[sd] = zeros 16 ∧ (s.clearSlot sd).kv[sd] = false := by
  simp

theorem State.clearSlot_other (s : State) {sd j : Slot} (h : j ≠ sd) :
    (s.clearSlot sd).k[j] = s.k[j] ∧ (s.clearSlot sd).kv[j] = s.kv[j] := by
  have hval : (sd : Nat) ≠ j := fun heq => h (Fin.ext heq.symm)
  simp [hval]

/-- Settles O26: each command is one slot write, and `KVALID` shows the valid flags bit by bit. -/
theorem slotsAreLoadedAndCleared : Obligations.SlotsAreLoadedAndCleared := by
  unfold Obligations.SlotsAreLoadedAndCleared
  simp only [State.getLsbD_kvalid]
  refine fun sd s => ⟨assemble_sd 0x10 sd, assemble_sd 0x11 sd, fun b hb => ?loaded, exec_kload_of_badLen sd, ?cleared⟩
  case loaded =>
    obtain ⟨hkey, hvalid⟩ := s.setSlot_self sd b
    exact ⟨_, exec_kload_of_holds sd hb, rfl, hkey, hvalid, fun j hj => s.setSlot_other b hj⟩
  case cleared =>
    obtain ⟨hkey, hvalid⟩ := s.clearSlot_self sd
    exact ⟨_, rfl, rfl, hkey, hvalid, fun j hj => s.clearSlot_other hj⟩

/-! ### `pwkdf` -/

/-- One round of R290 on chunks: the running block is encrypted under each chunk in turn. -/
def encryptUnderEach (chunks : List Block) (st : Block) : Block := chunks.foldl (fun st q => aesEnc q st) st

theorem pwRound_blockBytes (chunks : List Block) (st : Block) :
    pwRound chunks.length (blockBytes chunks) st = encryptUnderEach chunks st := by
  induction chunks generalizing st with
  | nil => rfl
  | cons q chunks ih =>
    have hq : sliceBytes 16 0 (blockBytes (q :: chunks)) = q := sliceBytes_append_left q _
    rw [List.length_cons, pwRound, hq, drop_blockBytes_cons, ih]
    rfl

theorem pwRounds_blockBytes (chunks : List Block) (n : Nat) (st : Block) :
    pwRounds (blockBytes chunks) n st = (encryptUnderEach chunks)^[n] st := by
  induction n generalizing st with
  | zero => rfl
  | succ n ih => rw [pwRounds, length_blockBytes_div, pwRound_blockBytes, ih, Function.iterate_succ_apply]

/-- The zero padding below 16 bytes that gives whole chunks is unique (R290). -/
theorem padPassword_eq {pw : List Byte} {z : Nat} {chunks : List Block} (hz : z < 16)
    (h : blockBytes chunks = pw ++ List.replicate z 0) : padPassword pw = blockBytes chunks := by
  have hlen : 16 * chunks.length = pw.length + z := by
    rw [← length_blockBytes, h, List.length_append, List.length_replicate]
  have hpad : (16 - pw.length % 16) % 16 = z := by omega
  rw [padPassword, hpad, h]

/-- `pwkdf` on the chunks of the padded password, for any parameters (R290). -/
theorem pwkdf_of_chunks (cfg : Config) {pw : List Byte} {z : Nat} {chunks : List Block} (hz : z < 16)
    (h : blockBytes chunks = pw ++ List.replicate z 0) :
    pwkdf cfg pw = (encryptUnderEach chunks)^[cfg.kdfRounds] cfg.kdfSeed := by
  rw [pwkdf, padPassword_eq hz h, pwRounds_blockBytes]

/-! ### `PWKDF` -/

theorem passwordLen_iff (n : BitVec 16) : passwordLen n = true ↔ 1 ≤ n.toNat ∧ n.toNat ≤ 4096 := by
  rw [passwordLen, Bool.and_eq_true, bne_iff_ne, decide_eq_true_iff, bufsz, Nat.one_le_iff_ne_zero]

theorem exec_pwkdf_of_holds (sd : Slot) {s : State} {pw : List Byte} (hmin : 1 ≤ pw.length) (hmax : pw.length ≤ 4096)
    (h : s.holds pw) : exec (.pwkdf sd) s = .next { s.setSlot sd (pwkdf params pw) with err := .ok } := by
  have hlen : s.ilen.toNat = pw.length := h.1
  calc exec (.pwkdf sd) s
      = .next { s.setSlot sd (pwkdf params s.operand) with err := .ok } :=
        if_pos ((passwordLen_iff _).mpr (hlen ▸ ⟨hmin, hmax⟩))
    _ = .next { s.setSlot sd (pwkdf params pw) with err := .ok } := by rw [State.operand_of_holds h]

theorem exec_pwkdf_of_badLen (sd : Slot) {s : State} (h : s.ilen = 0 ∨ 4096 < s.ilen.toNat) :
    exec (.pwkdf sd) s = .next { s with err := .badLen } := by
  refine if_neg fun hgood => ?_
  obtain ⟨hmin, hmax⟩ := (passwordLen_iff _).mp hgood
  rcases h with hzero | hlong
  · rw [hzero] at hmin
    exact absurd hmin (by decide)
  · exact absurd hmax (Nat.not_le.mpr hlong)

/-- Settles O27: the slot write of `pwkdf`, whose rounds are iterated on the chunks of the padded password. -/
theorem pwkdfDerivesTheSlotKey : Obligations.PwkdfDerivesTheSlotKey := by
  unfold Obligations.PwkdfDerivesTheSlotKey
  refine fun sd s => ⟨assemble_sd 0x38 sd, fun pw z chunks hmin hmax hz hchunks hpw => ?derived, exec_pwkdf_of_badLen sd⟩
  case derived =>
    obtain ⟨hkey, hvalid⟩ := s.setSlot_self sd (pwkdf params pw)
    exact ⟨_, exec_pwkdf_of_holds sd hmin hmax hpw, rfl, hkey.trans (pwkdf_of_chunks params hz hchunks), hvalid,
      fun j hj => s.setSlot_other _ hj⟩

end Machine
end Sys2Proof
end

section
/-! ## FileKey split and merge (R281, R282)

A file key is two halves of 16 bytes: the second is `iv ‖ mac`, and the first is the key xored with it. -/

namespace Sys2Proof.Machine

/-! ### Byte by byte -/

theorem getElem_splitKey_key (raw : Bytes 32) (i : Fin 16) :
    (splitKey raw).1[i] = raw[i.val]'(by omega) ^^^ raw[i.val + 16]'(by omega) := by
  simp [splitKey]

theorem getElem_splitKey_iv (raw : Bytes 32) (i : Fin 8) : (splitKey raw).2.1[i] = raw[i.val + 16]'(by omega) := by
  simp [splitKey]

theorem getElem_splitKey_mac (raw : Bytes 32) (i : Fin 8) : (splitKey raw).2.2[i] = raw[i.val + 24]'(by omega) := by
  simp [splitKey]

/-- The second half of a file key is its IV and its MAC (R281). -/
theorem getElem_joinHalves_splitKey (raw : Bytes 32) (i : Fin 16) :
    (joinHalves (splitKey raw).2.1 (splitKey raw).2.2)[i] = raw[i.val + 16]'(by omega) := by
  rcases Nat.lt_or_ge i.val 8 with hi | hi
  · exact (getElem_joinHalves_left _ _ ⟨i, hi⟩).trans (getElem_splitKey_iv raw ⟨i, hi⟩)
  · obtain ⟨j, hj⟩ := Nat.exists_eq_add_of_le' hi
    simp only [Fin.getElem_fin, hj]
    exact (getElem_joinHalves_right _ _ ⟨j, by omega⟩).trans (getElem_splitKey_mac raw ⟨j, by omega⟩)

theorem getElem_mergeKey_left (key : Block) (iv mac : Bytes 8) (i : Fin 16) :
    (mergeKey key iv mac)[i.val]'(by omega) = key[i] ^^^ (joinHalves iv mac)[i] := by
  simp [mergeKey]

theorem getElem_mergeKey_right (key : Block) (iv mac : Bytes 8) (i : Fin 16) :
    (mergeKey key iv mac)[i.val + 16]'(by omega) = (joinHalves iv mac)[i] := by
  simp [mergeKey]

theorem getElem_mergeKey_iv (key : Block) (iv mac : Bytes 8) (i : Fin 8) :
    (mergeKey key iv mac)[i.val + 16]'(by omega) = iv[i] :=
  (getElem_mergeKey_right key iv mac ⟨i, by omega⟩).trans (getElem_joinHalves_left iv mac i)

theorem getElem_mergeKey_mac (key : Block) (iv mac : Bytes 8) (i : Fin 8) :
    (mergeKey key iv mac)[i.val + 24]'(by omega) = mac[i] :=
  (getElem_mergeKey_right key iv mac ⟨i + 8, by omega⟩).trans (getElem_joinHalves_right iv mac i)

/-- Two 32-byte strings are equal when their halves are. -/
theorem bytes32_ext {raw raw' : Bytes 32} (hleft : ∀ i : Fin 16, raw[i.val]'(by omega) = raw'[i.val]'(by omega))
    (hright : ∀ i : Fin 16, raw[i.val + 16]'(by omega) = raw'[i.val + 16]'(by omega)) : raw = raw' := by
  ext i h : 1
  rcases Nat.lt_or_ge i 16 with hi | hi
  · exact hleft ⟨i, hi⟩
  · obtain ⟨j, rfl⟩ := Nat.exists_eq_add_of_le' hi
    exact hright ⟨j, by omega⟩

/-! ### The two are inverse -/

theorem mergeKey_splitKey (raw : Bytes 32) : mergeKey (splitKey raw).1 (splitKey raw).2.1 (splitKey raw).2.2 = raw := by
  refine bytes32_ext (fun i => ?_) (fun i => ?_)
  · rw [getElem_mergeKey_left, getElem_splitKey_key, getElem_joinHalves_splitKey, BitVec.xor_assoc, BitVec.xor_self,
      BitVec.xor_zero]
  · rw [getElem_mergeKey_right, getElem_joinHalves_splitKey]

theorem splitKey_mergeKey (key : Block) (iv mac : Bytes 8) : splitKey (mergeKey key iv mac) = (key, iv, mac) := by
  refine Prod.ext ?_ (Prod.ext ?_ ?_) <;> ext i h : 1
  · refine (getElem_splitKey_key _ ⟨i, h⟩).trans ?_
    rw [getElem_mergeKey_left, getElem_mergeKey_right, BitVec.xor_assoc, BitVec.xor_self, BitVec.xor_zero]
    rfl
  · exact (getElem_splitKey_iv _ ⟨i, h⟩).trans (getElem_mergeKey_iv key iv mac ⟨i, h⟩)
  · exact (getElem_splitKey_mac _ ⟨i, h⟩).trans (getElem_mergeKey_mac key iv mac ⟨i, h⟩)

/-! ### The bytes of a merged key in order -/

/-- `b ‖ d` of two blocks. -/
def joinBlocks (b d : Block) : Bytes 32 := Vector.append b d

theorem toList_joinBlocks (b d : Block) : (joinBlocks b d).toList = b.toList ++ d.toList := Vector.toList_append

theorem getElem_joinBlocks_left (b d : Block) (i : Nat) (h : i < 16) : (joinBlocks b d)[i] = b[i] :=
  Vector.getElem_append_left h

theorem getElem_joinBlocks_right (b d : Block) (i : Nat) (h : i < 16) : (joinBlocks b d)[i + 16] = d[i] :=
  (Vector.getElem_append_right (by omega) (by omega)).trans (by simp)

theorem toList_xorBytes {n : Nat} (a b : Bytes n) : (xorBytes a b).toList = List.zipWith (· ^^^ ·) a.toList b.toList := by
  refine List.ext_getElem (by simp) fun i _ _ => ?_
  simp

theorem toList_joinHalves (a b : Bytes 8) : (joinHalves a b).toList = a.toList ++ b.toList := by
  refine List.ext_getElem (by simp) fun i _ _ => ?_
  simp [joinHalves, List.getElem_append]

/-- A merged key is `key xor half ‖ half` with `half` = `iv ‖ mac` (R282). -/
theorem mergeKey_eq_joinBlocks (key : Block) (iv mac : Bytes 8) :
    mergeKey key iv mac = joinBlocks (xorBytes key (joinHalves iv mac)) (joinHalves iv mac) := by
  refine bytes32_ext (fun i => ?_) (fun i => ?_)
  · rw [getElem_mergeKey_left, getElem_joinBlocks_left _ _ i i.isLt, getElem_xorBytes]
    rfl
  · rw [getElem_mergeKey_right, getElem_joinBlocks_right _ _ i i.isLt]
    rfl

theorem toList_mergeKey (key : Block) (iv mac : Bytes 8) :
    (mergeKey key iv mac).toList =
      List.zipWith (· ^^^ ·) key.toList (iv.toList ++ mac.toList) ++ iv.toList ++ mac.toList := by
  rw [mergeKey_eq_joinBlocks, toList_joinBlocks, toList_xorBytes, toList_joinHalves, List.append_assoc]

/-! ### The statement -/

/-- Settles O28: byte by byte, and the xor with the second half undoes itself. -/
theorem splitAndMergeAreInverse : Obligations.SplitAndMergeAreInverse := by
  unfold Obligations.SplitAndMergeAreInverse
  refine ⟨fun raw => ⟨getElem_splitKey_key raw, fun i => ⟨getElem_splitKey_iv raw i, getElem_splitKey_mac raw i⟩,
    mergeKey_splitKey raw⟩, fun key iv mac => ⟨splitKey_mergeKey key iv mac,
    fun i => ⟨getElem_mergeKey_iv key iv mac i, getElem_mergeKey_mac key iv mac i⟩, fun i => ?_⟩⟩
  rw [getElem_mergeKey_left, getElem_mergeKey_right]

end Sys2Proof.Machine
end

section
/-! ## The node key (R26): `NSPLIT`, `NUNWRAP`, `NMERGE`, `NREAD`, `NCLEAR` (R283 to R288) -/

namespace Sys2Proof.Machine

/-! ### The node key of a raw value -/

theorem NodeKey.ofRaw_file (raw : Bytes 32) :
    NodeKey.ofRaw raw.toList =
      { state := .file, key := (splitKey raw).1, iv := (splitKey raw).2.1, mac := (splitKey raw).2.2 } := by
  rw [NodeKey.ofRaw, if_pos Vector.length_toList, sliceBytes_toList]

theorem NodeKey.ofRaw_folder (raw : Block) :
    NodeKey.ofRaw raw.toList = { state := .folder, key := raw, iv := zeros 8, mac := zeros 8 } := by
  rw [NodeKey.ofRaw, if_neg (by simp), sliceBytes_toList]

/-- The fields of a file node (R281). -/
theorem NodeKey.ofRaw_file_fields (raw : Bytes 32) :
    (NodeKey.ofRaw raw.toList).state = .file ∧
    (∀ i : Fin 16, (NodeKey.ofRaw raw.toList).key[i] = raw[i.val]'(by omega) ^^^ raw[i.val + 16]'(by omega)) ∧
    ∀ i : Fin 8, (NodeKey.ofRaw raw.toList).iv[i] = raw[i.val + 16]'(by omega) ∧
      (NodeKey.ofRaw raw.toList).mac[i] = raw[i.val + 24]'(by omega) := by
  rw [NodeKey.ofRaw_file]
  exact ⟨rfl, getElem_splitKey_key raw, fun i => ⟨getElem_splitKey_iv raw i, getElem_splitKey_mac raw i⟩⟩

/-! ### `NSPLIT` -/

theorem not_keyLen {n : BitVec 16} (h16 : n ≠ 16) (h32 : n ≠ 32) : ¬keyLen n = true :=
  mt (keyLen_iff n).mp (not_or.mpr ⟨h16, h32⟩)

theorem exec_nsplit_of_holds {s : State} {raw : List Byte} (hlen : raw.length = 16 ∨ raw.length = 32) (h : s.holds raw) :
    exec .nsplit s = .next { s with nk := NodeKey.ofRaw raw, err := .ok } := by
  calc exec .nsplit s
      = .next { s with nk := NodeKey.ofRaw s.operand, err := .ok } := if_pos (keyLen_of_holds h hlen)
    _ = .next { s with nk := NodeKey.ofRaw raw, err := .ok } := by rw [State.operand_of_holds h]

/-- Settles O29: the node key of a raw value of 32 or of 16 bytes. -/
theorem nsplitSetsTheNodeKey : Obligations.NsplitSetsTheNodeKey := by
  unfold Obligations.NsplitSetsTheNodeKey
  refine ⟨by decide, fun s => ⟨fun raw hraw => ?file, fun raw hraw => ?folder, fun h16 h32 => ?badLen⟩⟩
  case file => exact ⟨_, exec_nsplit_of_holds (by simp) hraw, NodeKey.ofRaw_file_fields raw⟩
  case folder => rw [exec_nsplit_of_holds (by simp) hraw, NodeKey.ofRaw_folder]
  case badLen => exact if_neg (not_keyLen h16 h32)

/-! ### `NUNWRAP` -/

/-- Everything `NUNWRAP` can do (R284): a wrong length, an invalid slot that leaves `NK` null, or the unwrapped key. -/
theorem exec_nunwrap_cases (sa : Slot) (s : State) :
    (¬keyLen s.ilen = true ∧ exec (.nunwrap sa) s = .next { s with err := .badLen }) ∨
    (keyLen s.ilen = true ∧ s.kv[sa] = false ∧
      exec (.nunwrap sa) s = .next { s with nk := NodeKey.null, err := .keySlot }) ∨
    (keyLen s.ilen = true ∧ s.kv[sa] = true ∧
      exec (.nunwrap sa) s = .next { s with nk := NodeKey.ofRaw (kunwrap s.k[sa] s.operand), err := .ok }) := by
  simp only [exec, execNunwrap]
  by_cases hlen : keyLen s.ilen = true
  · rw [if_pos hlen]
    cases hkv : s.kv[sa]
    · exact .inr (.inl ⟨hlen, rfl, by rw [State.slotKey?_eq_none.mpr hkv]; rfl⟩)
    · exact .inr (.inr ⟨hlen, rfl, by rw [State.slotKey?_eq_some.mpr ⟨hkv, rfl⟩]; rfl⟩)
  · exact .inl ⟨hlen, if_neg hlen⟩

theorem exec_nunwrap_of_holds {sa : Slot} {s : State} {wrapped : List Byte} (hkv : s.kv[sa] = true)
    (hlen : wrapped.length = 16 ∨ wrapped.length = 32) (h : s.holds wrapped) :
    exec (.nunwrap sa) s = .next { s with nk := NodeKey.ofRaw (perBlock (aesDec s.k[sa]) wrapped), err := .ok } := by
  rcases exec_nunwrap_cases sa s with ⟨hbad, _⟩ | ⟨_, hinvalid, _⟩ | ⟨_, _, heq⟩
  · exact absurd (keyLen_of_holds h hlen) hbad
  · cases hinvalid.symm.trans hkv
  · rw [heq, State.operand_of_holds h, kunwrap]

/-- Settles O30: the cases of `NUNWRAP`; two blocks, decrypted one by one, are the file key that is split. -/
theorem nunwrapUnwrapsAndSplits : Obligations.NunwrapUnwrapsAndSplits := by
  unfold Obligations.NunwrapUnwrapsAndSplits
  refine fun sa s => ⟨assemble_sa 0x31 sa, fun h16 h32 => ?badLen, fun hkv b d => ⟨fun hbd => ?file, fun hb => ?folder⟩,
    fun hkv hlen => ?keySlot⟩
  case badLen => exact if_neg (not_keyLen h16 h32)
  case file =>
    have hexec := exec_nunwrap_of_holds hkv (by simp) hbd
    rw [perBlock_two, ← toList_joinBlocks] at hexec
    obtain ⟨hstate, hkey, hhalves⟩ := NodeKey.ofRaw_file_fields (joinBlocks (aesDec s.k[sa] b) (aesDec s.k[sa] d))
    refine ⟨_, hexec, hstate, fun i => ?key, fun i => ?halves⟩
    case key => rw [hkey, getElem_joinBlocks_left _ _ i i.isLt, getElem_joinBlocks_right _ _ i i.isLt]; rfl
    case halves =>
      obtain ⟨hiv, hmac⟩ := hhalves i
      exact ⟨hiv.trans (getElem_joinBlocks_right _ _ i (by omega)),
        hmac.trans (getElem_joinBlocks_right _ _ (i + 8) (by omega))⟩
  case folder => rw [exec_nunwrap_of_holds hkv (by simp) hb, perBlock_one, NodeKey.ofRaw_folder]
  case keySlot =>
    rcases exec_nunwrap_cases sa s with ⟨hbad, _⟩ | ⟨_, _, heq⟩ | ⟨_, hvalid, _⟩
    · exact absurd ((keyLen_iff _).mpr hlen) hbad
    · exact heq
    · cases hvalid.symm.trans hkv

/-! ### `NMERGE` -/

theorem fileKeyLen_iff (n : BitVec 16) : fileKeyLen n = true ↔ n = 32 := by
  rw [fileKeyLen, beq_iff_eq, ← BitVec.toNat_inj]
  rfl

theorem nmerge_givesOutput {s : State} {key : Block} {iv mac : Bytes 8}
    (h : s.holds (key.toList ++ iv.toList ++ mac.toList)) :
    GivesOutput (exec .nmerge s) s (mergeKey key iv mac).toList := by
  have hlen : fileKeyLen s.ilen = true := by simpa [fileKeyLen] using h.1
  have hkey : sliceBytes 16 0 s.operand = key := by
    rw [State.operand_of_holds h, List.append_assoc, sliceBytes_append_left]
  have hiv : sliceBytes 8 16 s.operand = iv := by
    rw [State.operand_of_holds h, List.append_assoc]
    exact (sliceBytes_append_right 8 0 key _).trans (sliceBytes_append_left iv _)
  have hmac : sliceBytes 8 24 s.operand = mac := by
    rw [State.operand_of_holds h, List.append_assoc]
    exact (sliceBytes_append_right 8 8 key _).trans ((sliceBytes_append_right 8 0 iv _).trans (sliceBytes_toList mac))
  refine givesOutput_of_eq ?_
  rw [← hkey, ← hiv, ← hmac]
  exact if_pos hlen

/-- Settles O31: the output of `NMERGE` is the merged key, written out by halves. -/
theorem nmergeBuildsTheFileKey : Obligations.NmergeBuildsTheFileKey := by
  unfold Obligations.NmergeBuildsTheFileKey
  refine ⟨by decide, fun s => ⟨fun key iv mac h => ?merged, fun hlen => ?badLen⟩⟩
  case merged =>
    rw [← toList_mergeKey]
    exact nmerge_givesOutput h
  case badLen => exact if_neg (mt (fileKeyLen_iff _).mp hlen)

/-! ### `NREAD` and `NCLEAR` -/

theorem exec_nread_of_file {s : State} (h : s.nk.state = .file) :
    exec .nread s = .next { s.out (s.nk.key.toList ++ s.nk.iv.toList ++ s.nk.mac.toList) with err := .ok } := by
  simp [exec, execNread, h]

theorem exec_nread_of_folder {s : State} (h : s.nk.state = .folder) :
    exec .nread s = .next { s.out s.nk.key.toList with err := .ok } := by
  simp [exec, execNread, h]

theorem exec_nread_of_null {s : State} (h : s.nk.state = .null) : exec .nread s = .next { s with err := .keyAccess } := by
  simp [exec, execNread, h]

/-- Settles O32: `NREAD` by the state of the node; `NCLEAR` has one effect, whatever the state. -/
theorem nodeIsReadAndCleared : Obligations.NodeIsReadAndCleared := by
  unfold Obligations.NodeIsReadAndCleared
  exact ⟨by decide, by decide, fun s => ⟨fun hfile => givesOutput_of_eq (exec_nread_of_file hfile),
    fun hfolder => givesOutput_of_eq (exec_nread_of_folder hfolder), exec_nread_of_null, rfl⟩⟩

/-! ### `NREAD`, `NMERGE`, `NSPLIT` in turn (R286) -/

/-- What a command has output is what the host reads back from `OBUF[0..OLEN)` (R10, R32). -/
theorem GivesOutput.readRange_eq {r : Result} {s t : State} {v : List Byte} (h : GivesOutput r s v) (ht : r = .next t)
    (hlen : v.length < 2 ^ 16) : t.obuf.readRange 0 t.olen.toNat = v := by
  obtain ⟨u, hu, hframe, hbytes, -⟩ := h
  obtain rfl : t = u := Host.Outcome.next.inj (ht.symm.trans hu)
  have holen : t.olen.toNat = v.length := by
    rw [hframe]
    exact Nat.mod_eq_of_lt hlen
  rw [holen]
  refine List.ext_getElem (Memory.length_readRange _ _ _) fun j hj hj' => ?_
  rw [← List.getD_eq_getElem _ 0 hj, ← List.getD_eq_getElem _ 0 hj', Memory.getD_readRange _ _ _ _ hj', Nat.zero_add,
    hbytes j hj']

/-- Settles O33: the host reads back exactly what each command output, and `split` undoes `merge`. -/
theorem readMergeSplitRestoresTheNode : Obligations.ReadMergeSplitRestoresTheNode := by
  unfold Obligations.ReadMergeSplitRestoresTheNode
  intro s u v hfile s1 hs1 hu u1 hu1 hv
  have hread : GivesOutput (exec .nread s) s (s.nk.key.toList ++ s.nk.iv.toList ++ s.nk.mac.toList) :=
    givesOutput_of_eq (exec_nread_of_file hfile)
  rw [hread.readRange_eq hs1 (by simp)] at hu
  rw [(nmerge_givesOutput hu).readRange_eq hu1 (by simp)] at hv
  refine ⟨_, exec_nsplit_of_holds (by simp) hv, rfl, ?_⟩
  rw [NodeKey.ofRaw_file, splitKey_mergeKey, ← hfile]

end Sys2Proof.Machine
end

section
/-! ## The housekeeping commands: `NOP` (R305) -/

namespace Sys2Proof.Machine

theorem encode_nop : encode .nop = 0x0000 := by decide

/-- `NOP` is a command that only completes, and completing sets `STATUS.ERR` and nothing else (R99). -/
theorem exec_nop (s : State) : exec .nop s = .next { s with err := .ok } :=
  calc exec .nop s
    _ = s.complete := rfl
    _ = .next { s with err := .ok } := s.complete_eq

/-- Settles O14: the word of `NOP` is zero, so zero decodes to `NOP`, whose one effect is that of completing. -/
theorem nopOnlyClearsErr : Obligations.NopOnlyClearsErr := by
  unfold Obligations.NopOnlyClearsErr
  have hdecode : decode 0x0000 = .ok .nop := encode_nop ▸ decode_encode .nop
  exact ⟨encode_nop, hdecode, exec_nop⟩

end Sys2Proof.Machine
end

section
/-! ## Errors (R310, R313, R315)

Both statements are read off the effects of a command: the error each writes, and the few that change state before an error. -/

namespace Sys2Proof.Machine
variable {s u : State} {i : Instr} {e : ErrCode}

/-- A command raises only errors listed for it (R315). -/
theorem Effect.err_listed (h : Effect s i u e) : e = .ok ∨ e ∈ i.errors := by
  cases h with
  | raised listed => exact .inr listed
  | attrOfNullNode | nodeLost | readCorrupt => exact .inr (by simp [Instr.errors])
  | _ => exact .inl rfl

/-- Settles O6: the command ends in one of its effects, and the effect's error is listed. -/
theorem everyCommandCompletesOrRaisesItsErrors : Obligations.EveryCommandCompletesOrRaisesItsErrors := by
  unfold Obligations.EveryCommandCompletesOrRaisesItsErrors
  intro i s
  obtain ⟨u, e, heff, heq⟩ := exec_ends i s
  exact ⟨{ u with err := e }, heq, heff.err_listed⟩

/-- What a failing command changes before it raises its error: nothing, or what R313 lists for `NUNWRAP`, `ATTRDEC` and a read
whose integrity check fails. -/
theorem Effect.of_error (h : Effect s i u e) (he : e ≠ .ok) :
    u = s ∨
    (∃ sa, i = .nunwrap sa ∧ e = .keySlot ∧ u = s.setNode NodeKey.null) ∨
    (i = .attrdec ∧ e = .keyAccess ∧ u = s.setAttrbad true) ∨
    (i = .sread ∧ e = .integrity ∧ ∃ n, u = (s.readToEnd n).setInteg true) := by
  cases h with
  | raised => exact .inl rfl
  | nodeLost => exact .inr (.inl ⟨_, rfl, rfl, rfl⟩)
  | attrOfNullNode => exact .inr (.inr (.inl ⟨rfl, rfl, rfl⟩))
  | readCorrupt => exact .inr (.inr (.inr ⟨rfl, rfl, _, rfl⟩))
  | _ => exact absurd rfl he

/-- Settles O7: R313's three cases are the effects that change state before an error; finalising leaves the stream done. -/
theorem failingCommandChangesOnlyErr : Obligations.FailingCommandChangesOnlyErr := by
  unfold Obligations.FailingCommandChangesOnlyErr
  intro i s t h hne
  obtain ⟨u, e, heff, rfl⟩ := exec_effect h
  rcases heff.of_error hne with rfl | ⟨sa, hi, rfl, rfl⟩ | ⟨hi, rfl, rfl⟩ | ⟨hi, rfl, n, rfl⟩
  case inl => exact .inr (.inr (.inr rfl))
  case inr.inl => exact .inl ⟨sa, hi, rfl, rfl⟩
  case inr.inr.inl => exact .inr (.inl ⟨hi, rfl⟩)
  case inr.inr.inr => exact .inr (.inr (.inl ⟨hi, rfl, rfl, rfl⟩))

end Sys2Proof.Machine
end
